-- ==== Sys2Proof/Word.lean ====
section
/-! DEFINITION. The word types of the codec (00_scope.md R6, R8, R9): every value is an unsigned bit vector. -/

namespace Sys2Proof

/-- A 32-bit word: a command word, a register value or a pulse-unit word (R39, R81, R85). -/
abbrev Word := BitVec 32

/-- The 24-bit message word (`W_MSG`, R6, R80). -/
abbrev MsgWord := BitVec 24

/-- A measured duration in microseconds, `DUR_W` = 32 bits (R6, R37). -/
abbrev Dur := BitVec 32

/-- A duration sent to the sink in microseconds, `TX_DUR_W` = 16 bits (R6, R35). -/
abbrev TxDur := BitVec 16

end Sys2Proof
end

