-- ==== Sys2Proof/Syntax.lean ====
section
/-! DEFINITION. The syntax of the codec: its instructions (four host commands and four wire symbols, R1), the
values on the wire, the host's lines and textual forms (R88 to R90), and the turns of the agents (R16). -/

namespace Sys2Proof

/-- The instructions: one constructor per row of spec/opcode_table.json. The operands of ENCODE are stored at
their widths (R22, R23, R86), so every term is well-formed. -/
inductive Instr where
  | nop
  | encode (device : BitVec 5) (group : BitVec 15) (payload : BitVec 4)
  | decode
  | clrerr
  | sync
  | bit1
  | bit0
  | stop
deriving DecidableEq, Repr

/-- A message: the triple of R22. Equality is field by field (R181). -/
structure Message where
  device : BitVec 5
  group : BitVec 15
  payload : BitVec 4
deriving DecidableEq, Repr

/-- The four symbols of the bit-timing table (R21). -/
inductive Symbol where
  | sync
  | bit1
  | bit0
  | stop
deriving DecidableEq, Repr

/-- A symbol as the instruction of its opcode-table row. -/
def Symbol.instr : Symbol → Instr
  | .sync => .sync
  | .bit1 => .bit1
  | .bit0 => .bit0
  | .stop => .stop

/-- A pulse unit `PU(h, l)` as ENC sends it: high duration first, low second (R70, R35). -/
structure PulseUnit where
  h : TxDur
  l : TxDur
deriving DecidableEq, Repr

/-- A measured pulse `PULSE(h, l)` as the receive source reports it (R37). -/
structure Pulse where
  h : Dur
  l : Dur
deriving DecidableEq, Repr

/-- An event the transmit sink accepts (R35). -/
inductive SinkEvent where
  | carrier (hz : BitVec 32)
  | pulse (h l : TxDur)
deriving DecidableEq, Repr

/-- What `SrcHead()` returns (R37): a pulse, `WAIT`, or `END`. -/
inductive SrcHead where
  | pulse (p : Pulse)
  | wait
  | ended
deriving DecidableEq, Repr

/-- On which side of the wire a symbol is executed: ENC transmits it or DEC receives it (the model's own, log 10). -/
inductive Side where
  | tx
  | rx
deriving DecidableEq, Repr

/-- Where a host access goes: at `REG_BASE + off` (the notation of R88), or at a platform address (R52). -/
inductive Place where
  | off (n : Nat)
  | addr (a : Nat)
deriving DecidableEq, Repr

/-- One line the host executes: `MemWrite`, `MemRead` (R10) or `POLL` (R88). `width` is in bytes; R53 admits 4 only. -/
inductive HostLine where
  | write (place : Place) (width : Nat) (v : Word)
  | read (place : Place) (width : Nat)
  | poll (off : Nat) (mask v : Word)
deriving DecidableEq, Repr

/-- The textual forms of a host program (R88) and the pseudo-commands (R89, R90); log 20. -/
inductive HostText where
  | nop
  | encodeW (m : MsgWord)
  | encode (d g p : Nat)
  | decode
  | clrerr
  | w (off : Nat) (v : Word)
  | r (off : Nat)
  | poll (off : Nat) (mask v : Word)
  | send (d g p : Nat)
  | recv
deriving DecidableEq, Repr

/-- Whose step is taken next (R16, R60): the HOST's next line; ENC's, with the SINK accepting its offer or
stalling (R36); DEC's; the SOURCE's, appending a pulse or closing (R37); the platform's reset input (R212). -/
inductive Turn where
  | host
  | enc (accept : Bool)
  | dec
  | srcAppend (p : Pulse)
  | srcClose
  | reset
deriving DecidableEq, Repr, Inhabited

end Sys2Proof
end

