-- ==== Sys2Proof/Config.lean ====
section
/-! DEFINITION. The parameters of the block (R6) and the free values: what the spec fixes is a number, what it leaves
`OPEN` is a constant without a body, so that nothing can be proved of its value. -/

namespace Sys2Proof

/-- `N_PULSES`: pulse units in one frame (R6). -/
def Config.nPulses : Nat := 27

/-- `CARRIER_HZ`: the carrier frequency ENC declares, 0 for "no carrier" (R6, R87). -/
def Config.carrierHz : BitVec 32 := 0#32

/-- The default of `TOL_PCT` (R6, R104). PRESUMED by the spec from general knowledge (G1; log 18). -/
def Config.defaultTolPct : Nat := 25

/-- A tolerance policy: the verdict of the matcher on a measured pulse and a symbol (R100). -/
abbrev Matcher := Pulse → Symbol → Bool

/-- The OPEN part of the parameter `MATCH` (R6, R7, R103): unconstrained. `Machine/Operands.lean` adds the two
required properties P1 and P2 to it and nothing else (log 6). -/
opaque Config.rawMatch : Pulse → Symbol → Bool

/-- The OPEN parameter `REG_BASE`, divided by 32 (R51; log 7). -/
opaque Config.regBaseIndex : Nat

/-- `REG_BASE`: any multiple of 32 (R51). -/
def Config.regBase : Nat := 32 * Config.regBaseIndex

/-- The size of the host register window in bytes (R51). -/
def Config.windowBytes : Nat := 32

/-- The turn taken at the n-th step at which no turn has been chosen beforehand: free, since any enabled step of any
agent may be taken next (R16; log 1). -/
opaque Config.freeTurn : Nat → Turn

end Sys2Proof
end

