-- ==== Sys2Proof/WellFormed.lean ====
section
/-! DEFINITION. Which host accesses the block admits (R51 to R53). An `Instr` has no ill-formed term: the operands of
ENCODE are bit vectors of the widths of R22, and the other instructions take none (R86). -/

namespace Sys2Proof

/-- The check on the width and the offset of an access: 32 bits, at a multiple of 4 (R53). -/
def accessAdmitted (off width : Nat) : Bool :=
  width == 4 && off % 4 == 0

/-- The place of an access lies in the window (R51, R52). -/
def Place.inWindow : Place → Bool
  | .off n => decide (n < Config.windowBytes)
  | .addr a => decide (Config.regBase ≤ a) && decide (a < Config.regBase + Config.windowBytes)

/-- The offset of an access relative to `REG_BASE` (R52); meaningful in the window. -/
def Place.offset : Place → Nat
  | .off n => n
  | .addr a => a - Config.regBase

/-- A host line the block admits: an access in the window, 32 bits wide, at a multiple of 4 (R51 to R53). -/
def HostLine.wellFormed : HostLine → Bool
  | .write place width _ => place.inWindow && accessAdmitted place.offset width
  | .read place width => place.inWindow && accessAdmitted place.offset width
  | .poll off _ _ => (Place.off off).inWindow && accessAdmitted off 4

end Sys2Proof
end

