-- ==== Sys2Proof/Decode.lean ====
section
/-! DEFINITION. The two encodings: command words (R81 to R83) and pulse-unit words (R85), with their decoders, which
answer for every 32-bit word and reject by name, and the encoder. -/

namespace Sys2Proof

/-- `OP`, bits 31:28 of a command word (R81). -/
def opField (w : Word) : BitVec 4 := w.extractLsb' 28 4

/-- `RSV`, bits 27:24 of a command word (R81). -/
def rsvField (w : Word) : BitVec 4 := w.extractLsb' 24 4

/-- `ARG`, bits 23:0 of a command word (R81). -/
def argField (w : Word) : BitVec 24 := w.extractLsb' 0 24

/-- The device field of a message word, bits 23:19 (R80, R86). -/
def deviceField (m : MsgWord) : BitVec 5 := m.extractLsb' 19 5

/-- The group field of a message word, bits 18:4 (R80, R86). -/
def groupField (m : MsgWord) : BitVec 15 := m.extractLsb' 4 15

/-- The payload field of a message word, bits 3:0 (R80, R86). -/
def payloadField (m : MsgWord) : BitVec 4 := m.extractLsb' 0 4

/-- The message word `{device, group, payload}` (R80). -/
def packMsg (d : BitVec 5) (g : BitVec 15) (p : BitVec 4) : MsgWord := d ++ g ++ p

/-- Why a word is no instruction. -/
inductive DecodeReject where
  /-- `OP` is 0x4 to 0xF (R83). -/
  | reservedOp
  /-- `RSV` is not 0 (R83). -/
  | reservedRsv
  /-- `ARG` is not 0 for NOP, DECODE or CLRERR (R83). -/
  | nonzeroArg
  /-- The word is the pulse-unit word of none of the four symbols (R72 to R75). -/
  | notASymbol
deriving DecidableEq, Repr

/-- A command without operand: legal when `ARG` is 0 (R82, R83). -/
def plainCommand (w : Word) (i : Instr) : Except DecodeReject Instr :=
  if argField w = 0#24 then .ok i else .error .nonzeroArg

/-- The decoder of command words (R82, R83). -/
def decodeCommand (w : Word) : Except DecodeReject Instr :=
  if rsvField w ≠ 0#4 then .error .reservedRsv
  else if opField w = 0x0#4 then plainCommand w .nop
  else if opField w = 0x1#4 then
    .ok (.encode (deviceField (argField w)) (groupField (argField w)) (payloadField (argField w)))
  else if opField w = 0x2#4 then plainCommand w .decode
  else if opField w = 0x3#4 then plainCommand w .clrerr
  else .error .reservedOp

/-- The bit-timing table (R21): the nominal pulse unit of each symbol (R72 to R75). -/
def Symbol.nominal : Symbol → PulseUnit
  | .sync => ⟨450#16, 11880#16⟩
  | .bit1 => ⟨1240#16, 510#16⟩
  | .bit0 => ⟨470#16, 1300#16⟩
  | .stop => ⟨450#16, 450#16⟩

/-- The pulse-unit word `{h[15:0], l[15:0]}` (R85). -/
def PulseUnit.word (u : PulseUnit) : Word := u.h ++ u.l

/-- The decoder of pulse-unit words: the symbol whose nominal pair the word holds (R72 to R75, R85). -/
def decodeSymbol (w : Word) : Except DecodeReject Symbol :=
  if w = Symbol.sync.nominal.word then .ok .sync
  else if w = Symbol.bit1.nominal.word then .ok .bit1
  else if w = Symbol.bit0.nominal.word then .ok .bit0
  else if w = Symbol.stop.nominal.word then .ok .stop
  else .error .notASymbol

/-- The decoder over both formats of spec/opcode_table.json. The symbols' words are all reserved as command words
(their `RSV` is not 0), so no word is read in two ways; at `CMD` only `decodeCommand` is used (log 13). -/
def decodeWord (w : Word) : Except DecodeReject Instr :=
  match decodeSymbol w with
  | .ok y => .ok y.instr
  | .error _ => decodeCommand w

/-- The encoder (R72 to R75, R82, R85, R86). -/
def encode : Instr → Word
  | .nop => 0x00000000#32
  | .encode d g p => 0x10#8 ++ packMsg d g p
  | .decode => 0x20000000#32
  | .clrerr => 0x30000000#32
  | .sync => Symbol.sync.nominal.word
  | .bit1 => Symbol.bit1.nominal.word
  | .bit0 => Symbol.bit0.nominal.word
  | .stop => Symbol.stop.nominal.word

/-- The word an opcode-table row's bits stand for: an instruction is one 32-bit word, so bits above it must be 0. -/
def tableWord (nbits w : Nat) : Option Word :=
  if w % 2 ^ nbits < 2 ^ 32 then some (BitVec.ofNat 32 (w % 2 ^ nbits)) else none

/-- The instruction the decoder reads from a table row's word. -/
def decodeTableWord (nbits w : Nat) : Option Instr :=
  match tableWord nbits w with
  | none => none
  | some v =>
    match decodeWord v with
    | .ok i => some i
    | .error _ => none

end Sys2Proof
end

