-- ==== Sys2Proof/Machine/State.lean ====
section
/-! DEFINITION. The state of the block and of its collaborators as far as the block sees them (R20), the reasons a
step can stop, and the state after reset (R210). -/

namespace Sys2Proof.Machine

/-- `enc_phase` (R24, R25). Code 3 never occurs and is not representable (log 19). -/
inductive EncPhase where
  | idle
  | carrier
  | pulses
deriving DecidableEq, Repr

/-- `dec_state` (R29). Codes 9 to 15 never occur and are not representable (log 19). -/
inductive DecState where
  | idle
  | awaitSync
  | readDevice
  | readGroup
  | readPayload
  | awaitStop1
  | awaitStop2
  | accepted
  | rejected
deriving DecidableEq, Repr

/-- The encoder unit's state elements (R24). -/
structure Enc where
  phase : EncPhase
  k : BitVec 6
  msg : MsgWord
  carrier : Bool
  done : Bool
deriving DecidableEq, Repr

/-- The decoder unit's state elements (R28). -/
structure Dec where
  state : DecState
  i : BitVec 4
  accDevice : BitVec 5
  accGroup : BitVec 15
  accPayload : BitVec 4
  consumed : BitVec 6
  msg : MsgWord
deriving DecidableEq, Repr

/-- The three sticky error flags (R33). -/
structure Err where
  ill : Bool
  encDrop : Bool
  decDrop : Bool
deriving DecidableEq, Repr

/-- The whole state: the block's (R24, R28, R33), the collaborators' (R35, R37), and the model's own fields, which
hold what is outside the block or not yet decided (log 1, log 3, log 4, log 10). -/
structure State where
  /-- encoder unit (R24) -/
  enc : Enc
  /-- decoder unit (R28) -/
  dec : Dec
  /-- error flags (R33) -/
  err : Err
  /-- events the sink has accepted, in acceptance order (R35) -/
  sinkTrace : List SinkEvent
  /-- measured pulses received and not consumed, oldest first (R37) -/
  srcQueue : List Pulse
  /-- no further pulse will arrive (R37) -/
  srcClosed : Bool
  /-- the host's lines still to execute (the model's own, log 3) -/
  hostProg : List HostLine
  /-- the values `MemRead` has returned to the host, oldest first (the model's own, log 4) -/
  hostReads : List Word
  /-- the turns already chosen, next first (the model's own, log 1) -/
  schedule : List Turn
  /-- how many free turns have been drawn (the model's own, log 1) -/
  tick : Nat
  /-- on which side of the wire the symbol in hand is (the model's own, log 10) -/
  wire : Side
deriving DecidableEq, Repr

/-- Why a step stops with a fault. Both stand for positions the spec says never occur; no step leads from a legal
state to one of them. -/
inductive Fault where
  /-- Raised when ENC is in `PULSES` with `enc_k` above 26, which R26 says never occurs: the frame has no such pulse
  unit (R123). Safe: the model stops where the spec gives no behaviour. -/
  | encPosition
  /-- Raised when DEC takes a bit with `dec_i` beyond the field's last bit, which R30 says never occurs. Safe: the
  model stops where the spec gives no behaviour. -/
  | decPosition
deriving DecidableEq, Repr

/-- Why a step is refused. -/
inductive Refusal where
  /-- Raised by an arm of `exec` whose instruction has no meaning yet; no arm does. Safe. -/
  | notModelled (mnemonic : String)
  /-- Raised by a host access of another width than 32 bits or at an offset that is not a multiple of 4: the parameter
  `BAD_ACCESS`, which R53 and R178 tell a model to refuse. Safe. -/
  | badAccess
  /-- Raised by a host access outside the register window: the block does not respond, and what the platform does is
  outside the spec (R52). Safe. -/
  | outsideWindow
deriving DecidableEq, Repr

/-- Reset values of the encoder unit (R24, R210). -/
def Enc.reset : Enc where
  phase := .idle
  k := 0#6
  msg := 0#24
  carrier := false
  done := false

/-- Reset values of the decoder unit (R28, R210). -/
def Dec.reset : Dec where
  state := .idle
  i := 0#4
  accDevice := 0#5
  accGroup := 0#15
  accPayload := 0#4
  consumed := 0#6
  msg := 0#24

/-- Reset values of the error flags (R33, R210). -/
def Err.reset : Err where
  ill := false
  encDrop := false
  decDrop := false

/-- The machine right after power-on reset (R210, R212). The block's elements have the spec's values. The collaborators
start with nothing sent and nothing received, the source open (log 5); the model's own fields are empty. -/
def State.reset : State where
  enc := Enc.reset
  dec := Dec.reset
  err := Err.reset
  sinkTrace := []
  srcQueue := []
  srcClosed := false
  hostProg := []
  hostReads := []
  schedule := []
  tick := 0
  wire := .rx

end Sys2Proof.Machine
end

