-- ==== Sys2Proof/Machine/Operands.lean ====
section
/-! DEFINITION. How operands are formed: messages and message words (R22, R80, R86, R89), the frame and its symbols
(R122, R123), the matcher and the classification of a measured pulse (R100 to R106), and the expansion of the host's
textual forms (R88 to R90). -/

namespace Sys2Proof

/-- The message word of a message (R80). -/
def Message.word (x : Message) : MsgWord := packMsg x.device x.group x.payload

/-- The message of a message word (R80, R180). -/
def Message.ofWord (m : MsgWord) : Message := ⟨deviceField m, groupField m, payloadField m⟩

/-- The message word of the pseudo-command `ENCODE d, g, p`: each natural number modulo 2 to its field's width (R89). -/
def truncatedMsg (d g p : Nat) : MsgWord :=
  BitVec.ofNat 24 ((d % 32) <<< 19 ||| (g % 32768) <<< 4 ||| p % 16)

/-- The letter of a symbol in the pulse-train notation (R91). -/
def Symbol.letter : Symbol → Char
  | .sync => 'S'
  | .bit1 => '1'
  | .bit0 => '0'
  | .stop => 'P'

/-- The measured pulse that is exactly a symbol's nominal pair (R101): the durations widened with zero bits (R9). -/
def Symbol.nominalPulse (y : Symbol) : Pulse := ⟨y.nominal.h.setWidth 32, y.nominal.l.setWidth 32⟩

/-- The sink event that carries a symbol: its nominal durations exactly (R125). -/
def Symbol.event (y : Symbol) : SinkEvent := .pulse y.nominal.h y.nominal.l

/-- `BITSYM(b)` (R122). -/
def bitSym (b : Bool) : Symbol := if b then .bit1 else .bit0

/-- `SYMBOL_AT(m, k)`; nothing stands at an index above 26 (R123). -/
def symbolAt (m : MsgWord) (k : Nat) : Option Symbol :=
  if k = 0 then some .sync
  else if k ≤ 24 then some (bitSym (m.getLsbD (24 - k)))
  else if k ≤ 26 then some .stop
  else none

/-- `FRAME(m)`: the symbols at the indices 0 to 26 (R123). -/
def frame (m : MsgWord) : List Symbol := (List.range Config.nPulses).filterMap (symbolAt m)

/-- The bits of a field, most significant first (R8, R55). -/
def msbFirst {w : Nat} (v : BitVec w) : List Bool := (List.range w).map (fun j => v.getLsbD (w - 1 - j))

/-! ### The matcher -/

/-- Property P1, nominal acceptance (R101). -/
def NominalAcceptance (M : Matcher) : Prop := ∀ y : Symbol, M y.nominalPulse y = true

/-- Property P2, bit discrimination (R102). -/
def BitDiscrimination (M : Matcher) : Prop := M Symbol.bit0.nominalPulse .bit1 = false

/-- A tolerance policy made to have P1 and P2, and unchanged wherever they say nothing (R103; log 6). -/
def constrained (raw : Matcher) : Matcher := fun p y =>
  if p = y.nominalPulse then true
  else if p = Symbol.bit0.nominalPulse ∧ y = .bit1 then false
  else raw p y

/-- The block's `MATCH`: any predicate with P1 and P2, and no particular one (R100, R103). -/
def matcher : Matcher := constrained Config.rawMatch

/-- `lo(n)` of the default matcher (R104). -/
def windowLo (tol n : Nat) : Nat := (100 - tol) * n / 100

/-- `hi(n)` of the default matcher (R104). -/
def windowHi (tol n : Nat) : Nat := (100 + tol) * n / 100

/-- `DEFAULT_MATCH(T)`: both durations in the inclusive percentage windows (R104). -/
def defaultMatch (tol : Nat) : Matcher := fun p y =>
  decide (windowLo tol y.nominal.h.toNat ≤ p.h.toNat) && decide (p.h.toNat ≤ windowHi tol y.nominal.h.toNat) &&
  decide (windowLo tol y.nominal.l.toNat ≤ p.l.toNat) && decide (p.l.toNat ≤ windowHi tol y.nominal.l.toNat)

/-! ### Candidates and classification -/

/-- The candidate list of each decoder state, in the order tried (R105). -/
def Machine.candidates : Machine.DecState → List Symbol
  | .idle => []
  | .awaitSync => [.sync]
  | .readDevice => [.bit1, .bit0]
  | .readGroup => [.bit1, .bit0]
  | .readPayload => [.bit1, .bit0]
  | .awaitStop1 => [.stop]
  | .awaitStop2 => [.stop]
  | .accepted => []
  | .rejected => []

/-- `CLASSIFY(state, p)`: the first candidate the matcher accepts (R106). -/
def Machine.classify (M : Matcher) (st : Machine.DecState) (p : Pulse) : Option Symbol :=
  (Machine.candidates st).find? (M p)

/-- The bit a symbol carries (R77, R146). -/
def Symbol.bit : Symbol → Bool
  | .bit1 => true
  | .bit0 => false
  | .sync => false
  | .stop => false

/-! ### The host's textual forms -/

/-- A write of a command word to `CMD` (R88). -/
def cmdLine (w : Word) : HostLine := .write (.off 0x00) 4 w

/-- The line writes a command: a 32-bit word to `CMD`, at whichever of its two addresses (R52, R81; log 21). -/
def HostLine.isCommand : HostLine → Bool
  | .write place width _ => place.inWindow && width == 4 && place.offset == 0x00
  | .read _ _ => false
  | .poll _ _ _ => false

/-- The command word of `ENCODE.W m` (R88). -/
def encodeWord (m : MsgWord) : Word := 0x10000000#32 ||| m.setWidth 32

/-- The lines a textual form stands for (R88, R89, R90). -/
def HostText.expand : HostText → List HostLine
  | .nop => [cmdLine 0x00000000#32]
  | .encodeW m => [cmdLine (encodeWord m)]
  | .encode d g p => [cmdLine (encodeWord (truncatedMsg d g p))]
  | .decode => [cmdLine 0x20000000#32]
  | .clrerr => [cmdLine 0x30000000#32]
  | .w off v => [.write (.off off) 4 v]
  | .r off => [.read (.off off) 4]
  | .poll off mask v => [.poll off mask v]
  | .send d g p => [cmdLine (encodeWord (truncatedMsg d g p)), .poll 0x04 0x300#32 0x200#32]
  | .recv =>
    [cmdLine 0x20000000#32, .poll 0x0C 0x20000#32 0x20000#32, .read (.off 0x0C) 4, .read (.off 0x10) 4]

end Sys2Proof
end

