-- ==== Sys2Proof/Machine/Flags.lean ====
section
/-! DEFINITION. The status bits and the host's registers: functions of the state with no storage of their own
(R39 to R48). -/

namespace Sys2Proof.Machine

/-- The code of `enc_phase` (R24). -/
def EncPhase.code : EncPhase → BitVec 2
  | .idle => 0#2
  | .carrier => 1#2
  | .pulses => 2#2

/-- The code of `dec_state` (R29). -/
def DecState.code : DecState → BitVec 4
  | .idle => 0#4
  | .awaitSync => 1#4
  | .readDevice => 2#4
  | .readGroup => 3#4
  | .readPayload => 4#4
  | .awaitStop1 => 5#4
  | .awaitStop2 => 6#4
  | .accepted => 7#4
  | .rejected => 8#4

/-- `ENC_STATUS.BUSY`: `enc_phase != IDLE` (R41). -/
def Enc.busy (e : Enc) : Bool :=
  match e.phase with
  | .idle => false
  | .carrier => true
  | .pulses => true

/-- `DEC_STATUS.BUSY`: the six busy states (R29, R43). -/
def DecState.busy : DecState → Bool
  | .idle => false
  | .awaitSync => true
  | .readDevice => true
  | .readGroup => true
  | .readPayload => true
  | .awaitStop1 => true
  | .awaitStop2 => true
  | .accepted => false
  | .rejected => false

/-- `DEC_STATUS.DONE`: a terminal state (R29, R43). -/
def DecState.terminal : DecState → Bool
  | .idle => false
  | .awaitSync => false
  | .readDevice => false
  | .readGroup => false
  | .readPayload => false
  | .awaitStop1 => false
  | .awaitStop2 => false
  | .accepted => true
  | .rejected => true

/-- `DEC_STATUS.ACCEPT`: `dec_state = ACCEPTED` (R43). -/
def DecState.accept : DecState → Bool
  | .idle => false
  | .awaitSync => false
  | .readDevice => false
  | .readGroup => false
  | .readPayload => false
  | .awaitStop1 => false
  | .awaitStop2 => false
  | .accepted => true
  | .rejected => false

/-- `ENC_STATUS` (R41). -/
def encStatusReg (s : State) : Word :=
  0#21 ++ BitVec.ofBool s.enc.carrier ++ BitVec.ofBool s.enc.done ++ BitVec.ofBool s.enc.busy ++ 0#2 ++ s.enc.k

/-- `ENC_MSG` (R42). -/
def encMsgReg (s : State) : Word := 0#8 ++ s.enc.msg

/-- `DEC_STATUS` (R43). -/
def decStatusReg (s : State) : Word :=
  0#13 ++ BitVec.ofBool s.dec.state.accept ++ BitVec.ofBool s.dec.state.terminal ++
    BitVec.ofBool s.dec.state.busy ++ 0#2 ++ s.dec.consumed ++ s.dec.i ++ s.dec.state.code

/-- `DEC_MSG` (R44). -/
def decMsgReg (s : State) : Word := 0#8 ++ s.dec.msg

/-- `ERR` (R45). -/
def errReg (s : State) : Word :=
  0#29 ++ BitVec.ofBool s.err.decDrop ++ BitVec.ofBool s.err.encDrop ++ BitVec.ofBool s.err.ill

/-- The value a read of the register at `off` returns; `CMD` and the two unmapped offsets read 0 (R39, R176). -/
def regValue (s : State) (off : Nat) : Word :=
  if off = 0x04 then encStatusReg s
  else if off = 0x08 then encMsgReg s
  else if off = 0x0C then decStatusReg s
  else if off = 0x10 then decMsgReg s
  else if off = 0x14 then errReg s
  else 0#32

end Sys2Proof.Machine
end

