-- ==== Sys2Proof/Machine/Ops.lean ====
section
/-! DEFINITION. The named operations over the state: its updates, the interface primitives of R11, raising
FrameMismatch (R190) and the sticky flags (R192), the units' own moves (R124, R125, R145 to R150) and reset (R210). -/

namespace Sys2Proof.Machine

/-- The outcomes of this machine's steps. -/
abbrev Result := Host.Outcome State Fault Refusal

/-- Apply `f` to the next state, and leave a fault or a refusal as it is. -/
def mapNext (f : State → State) : Result → Result
  | .next s => .next (f s)
  | .fault r => .fault r
  | .refused r => .refused r

/-- Go on from the next state with `f`, and leave a fault or a refusal as it is. -/
def andThen (r : Result) (f : State → Result) : Result :=
  match r with
  | .next s => f s
  | .fault r => .fault r
  | .refused r => .refused r

/-! ### Updates of the state -/

/-- Replace the encoder unit's elements. -/
def setEnc (s : State) (e : Enc) : State := { s with enc := e }

/-- Replace the decoder unit's elements. -/
def setDec (s : State) (d : Dec) : State := { s with dec := d }

/-- Replace the error flags. -/
def setErr (s : State) (e : Err) : State := { s with err := e }

/-- `SinkPut(e)` at its acceptance: append the event (R35, R36). -/
def sinkPut (s : State) (e : SinkEvent) : State := { s with sinkTrace := s.sinkTrace ++ [e] }

/-- `SrcConsume()`: remove the head pulse (R38). -/
def srcConsume (s : State) : State := { s with srcQueue := s.srcQueue.tail }

/-- The SOURCE appends a pulse while it is open; when it has closed no pulse arrives (R37; log 2). -/
def srcAppend (s : State) (p : Pulse) : State :=
  { s with srcQueue := if s.srcClosed then s.srcQueue else s.srcQueue ++ [p] }

/-- The SOURCE closes (R37). -/
def srcClose (s : State) : State := { s with srcClosed := true }

/-- The host's remaining lines. -/
def setHostProg (s : State) (ls : List HostLine) : State := { s with hostProg := ls }

/-- `MemRead` returns a value to the host (log 4). -/
def hostReturn (s : State) (v : Word) : State := { s with hostReads := s.hostReads ++ [v] }

/-- The turns already chosen. -/
def setSchedule (s : State) (ts : List Turn) : State := { s with schedule := ts }

/-- One free turn has been drawn. -/
def countTurn (s : State) : State := { s with tick := s.tick + 1 }

/-- Take the symbol in hand to one side of the wire. -/
def setWire (s : State) (w : Side) : State := { s with wire := w }

/-! ### The receive source -/

/-- `SrcHead()` (R37). -/
def srcHead (s : State) : SrcHead :=
  match s.srcQueue with
  | p :: _ => .pulse p
  | [] => if s.srcClosed then .ended else .wait

/-! ### Errors -/

/-- `raise FrameMismatch`: the one shared operation that takes the decoder's error. The state becomes `REJECTED`,
`dec_i` 0; nothing is consumed and nothing else changes (R190, R141). -/
def frameMismatch (s : State) : State := setDec s { s.dec with state := .rejected, i := 0#4 }

/-- Leaving `REJECTED` or `ACCEPTED`, and starting a decode: the effect of an accepted DECODE (R140, R196). -/
def startDecode (s : State) : State :=
  setDec s { state := .awaitSync, i := 0#4, accDevice := 0#5, accGroup := 0#15, accPayload := 0#4,
             consumed := 0#6, msg := 0#24 }

/-- A reserved command word was written (R172). -/
def raiseIll (s : State) : State := setErr s { s.err with ill := true }

/-- An ENCODE was written while ENC is busy (R173). -/
def raiseEncDrop (s : State) : State := setErr s { s.err with encDrop := true }

/-- A DECODE was written while DEC is busy (R173). -/
def raiseDecDrop (s : State) : State := setErr s { s.err with decDrop := true }

/-- Leaving the sticky errors (R171, R196). -/
def clearErr (s : State) : State := setErr s { ill := false, encDrop := false, decDrop := false }

/-! ### The encoder unit's moves -/

/-- The effect of an accepted ENCODE with message word `m` (R120). -/
def startEncode (s : State) (m : MsgWord) : State :=
  setEnc s { phase := .carrier, k := 0#6, msg := m, carrier := false, done := false }

/-- The carrier step, at the sink's acceptance (R124). -/
def emitCarrier (s : State) : State :=
  setEnc (sinkPut s (.carrier Config.carrierHz)) { s.enc with carrier := true, phase := .pulses }

/-- The encoder's elements after the acceptance of pulse unit `enc_k` (R125). -/
def Enc.advance (e : Enc) : Enc :=
  if e.k + 1#6 = 27#6 then { e with k := e.k + 1#6, phase := .idle, done := true }
  else { e with k := e.k + 1#6 }

/-- ENC sends a symbol, at the sink's acceptance: the pulse step of R125 with that symbol as the pulse unit. Outside
`PULSES` ENC offers nothing (R25, R126), and at an index above 26 there is nothing to offer (R26; log 12). -/
def txSymbol (y : Symbol) (s : State) : Result :=
  if s.enc.phase ≠ .pulses then .next s
  else if s.enc.k.toNat ≤ 26 then .next (setEnc (sinkPut s y.event) s.enc.advance)
  else .fault .encPosition

/-! ### The decoder unit's moves -/

/-- Shift a bit into an accumulator, MSB first, kept at its width (R146 to R148). -/
def shiftIn {w : Nat} (acc : BitVec w) (b : Bool) : BitVec w := (acc <<< 1) ||| (BitVec.ofBool b).setWidth w

/-- The pulse in hand is consumed and counted, in the step in which it matched (R141, R144). -/
def consume (s : State) : State := setDec (srcConsume s) { s.dec with consumed := s.dec.consumed + 1#6 }

/-- A bit arrives in the device field (R146). -/
def Dec.deviceBit (d : Dec) (b : Bool) : Dec :=
  if d.i = 4#4 then { d with accDevice := shiftIn d.accDevice b, state := .readGroup, i := 0#4 }
  else { d with accDevice := shiftIn d.accDevice b, i := d.i + 1#4 }

/-- A bit arrives in the group field (R147). -/
def Dec.groupBit (d : Dec) (b : Bool) : Dec :=
  if d.i = 14#4 then { d with accGroup := shiftIn d.accGroup b, state := .readPayload, i := 0#4 }
  else { d with accGroup := shiftIn d.accGroup b, i := d.i + 1#4 }

/-- A bit arrives in the payload field (R148). -/
def Dec.payloadBit (d : Dec) (b : Bool) : Dec :=
  if d.i = 3#4 then { d with accPayload := shiftIn d.accPayload b, state := .awaitStop1, i := 0#4 }
  else { d with accPayload := shiftIn d.accPayload b, i := d.i + 1#4 }

/-- The highest legal `dec_i` of a state (R30). -/
def DecState.lastIndex : DecState → Nat
  | .readDevice => 4
  | .readGroup => 14
  | .readPayload => 3
  | .idle => 0
  | .awaitSync => 0
  | .awaitStop1 => 0
  | .awaitStop2 => 0
  | .accepted => 0
  | .rejected => 0

/-- `ADVANCE(y)`: the decoder's elements after a matched symbol, by the state (R145 to R150). -/
def Dec.advance (d : Dec) (y : Symbol) : Dec :=
  match d.state with
  | .awaitSync => { d with state := .readDevice, i := 0#4 }
  | .readDevice => d.deviceBit y.bit
  | .readGroup => d.groupBit y.bit
  | .readPayload => d.payloadBit y.bit
  | .awaitStop1 => { d with state := .awaitStop2 }
  | .awaitStop2 => { d with state := .accepted, msg := packMsg d.accDevice d.accGroup d.accPayload }
  | .idle => d
  | .accepted => d
  | .rejected => d

/-- DEC moves on a matched symbol: consume, count, advance (R141). A `dec_i` beyond the field never occurs (R30; log 12). -/
def takeSymbol (y : Symbol) (s : State) : Result :=
  if s.dec.i.toNat ≤ s.dec.state.lastIndex then
    .next (setDec (consume s) ((consume s).dec.advance y))
  else .fault .decPosition

/-- DEC executes a symbol: outside the busy states it takes no step (R151); it holds on `WAIT` (R142), rejects on `END`
(R143) and on a symbol that is not legal at its position (R79; log 11), and otherwise consumes the head and advances. -/
def rxSymbol (y : Symbol) (s : State) : Result :=
  if s.dec.state.busy then
    match srcHead s with
    | .wait => .next s
    | .ended => .next (frameMismatch s)
    | .pulse _ =>
      if (candidates s.dec.state).contains y then takeSymbol y s else .next (frameMismatch s)
  else .next s

/-- A wire symbol is executed by the unit on whose side of the wire it is in hand (R1, R21; log 10). -/
def wireSymbol (y : Symbol) (s : State) : Result :=
  match s.wire with
  | .tx => txSymbol y s
  | .rx => rxSymbol y s

/-! ### Reset -/

/-- The reset event: every element of the block at its reset value (R210), the collaborators unchanged (R211; log 17). -/
def blockReset (s : State) : State := setErr (setDec (setEnc s Enc.reset) Dec.reset) Err.reset

end Sys2Proof.Machine
end

