-- ==== Sys2Proof/Machine/Control.lean ====
section
/-! DEFINITION. The meanings of the host commands (R120, R140, R170, R171, R173). -/

namespace Sys2Proof.Machine

/-- NOP: no state changes (R170). -/
def execNop (s : State) : Result := .next s

/-- ENCODE: dropped with `err_enc_drop` while ENC is busy, else the message is latched and the frame begins
(R120, R173). -/
def execEncode (device : BitVec 5) (group : BitVec 15) (payload : BitVec 4) (s : State) : Result :=
  if s.enc.phase ≠ .idle then .next (raiseEncDrop s)
  else .next (startEncode s (packMsg device group payload))

/-- DECODE: dropped with `err_dec_drop` while DEC is busy, else the decode begins (R140, R173). -/
def execDecode (s : State) : Result :=
  if s.dec.state.busy then .next (raiseDecDrop s) else .next (startDecode s)

/-- CLRERR: the three error flags become 0 (R171). -/
def execClrerr (s : State) : Result := .next (clearErr s)

end Sys2Proof.Machine
end

