-- ==== Sys2Proof/Machine/Wire.lean ====
section
/-! DEFINITION. The meanings of the four wire symbols (R72 to R75): what the unit that has the symbol in hand does with
it. ENC sends it to the sink (R125); DEC consumes the pulse it classified as this symbol and advances (R141, R145 to
R150). -/

namespace Sys2Proof.Machine

/-- SYNC, the frame's first pulse unit (R72, R145). -/
def execSync (s : State) : Result := wireSymbol .sync s

/-- BIT1, a message bit of value 1 (R73, R146 to R148). -/
def execBit1 (s : State) : Result := wireSymbol .bit1 s

/-- BIT0, a message bit of value 0 (R74, R146 to R148). -/
def execBit0 (s : State) : Result := wireSymbol .bit0 s

/-- STOP, the last two pulse units of a frame (R75, R149, R150). -/
def execStop (s : State) : Result := wireSymbol .stop s

end Sys2Proof.Machine
end

