-- ==== Sys2Proof/Machine/Dispatch.lean ====
section
/-! DEFINITION. One arm per instruction, each a direct call of its meaning. -/

namespace Sys2Proof.Machine

def exec (i : Instr) (s : State) : Host.Outcome State Fault Refusal :=
  match i with
  | .nop => Sys2Proof.Machine.execNop s
  | .encode device group payload => Sys2Proof.Machine.execEncode device group payload s
  | .decode => Sys2Proof.Machine.execDecode s
  | .clrerr => Sys2Proof.Machine.execClrerr s
  | .sync => Sys2Proof.Machine.execSync s
  | .bit1 => Sys2Proof.Machine.execBit1 s
  | .bit0 => Sys2Proof.Machine.execBit0 s
  | .stop => Sys2Proof.Machine.execStop s

end Sys2Proof.Machine
end

