-- ==== Sys2Proof/Machine/Agents.lean ====
section
/-! DEFINITION. The steps of the agents (R16): the host's accesses (R170 to R178), ENC's and DEC's steps, which fetch a
symbol and execute it, the source's, and the choice of the next turn. The matcher is an argument throughout (R103). -/

namespace Sys2Proof.Machine

/-! ### The host -/

/-- Dispatch of a write of `w` to `CMD` (R174): a reserved word sets `err_ill` and does nothing else (R172); every
other word is one instruction. -/
def performCommand (w : Word) (s : State) : Result :=
  match decodeCommand w with
  | .ok i => exec i s
  | .error _ => .next (raiseIll s)

/-- `MemWrite` of an admitted access: `CMD` performs a command, every other offset ignores the write (R177). -/
def regWrite (off : Nat) (v : Word) (s : State) : Result :=
  if off = 0x00 then performCommand v s else .next s

/-- Whether the block answers an access: outside the window it does not respond (R52; log 9), inside it the model
refuses what `BAD_ACCESS` governs (R53, R178; log 8). -/
def guardAccess (place : Place) (width : Nat) (r : Result) : Result :=
  if place.inWindow then
    if accessAdmitted place.offset width then r else .refused .badAccess
  else .refused .outsideWindow

/-- The HOST's step: its next line. A read returns the register's value and changes nothing of the block (R176); a
`POLL` reads once and stays until the masked value is the wanted one (R88; log 14). -/
def hostStep (s : State) : Result :=
  match s.hostProg with
  | [] => .next s
  | .write place width v :: rest => guardAccess place width (regWrite place.offset v (setHostProg s rest))
  | .read place width :: rest =>
    guardAccess place width (.next (hostReturn (setHostProg s rest) (regValue s place.offset)))
  | .poll off mask v :: rest =>
    guardAccess (.off off) 4
      (.next (hostReturn (if regValue s off &&& mask = v then setHostProg s rest else s) (regValue s off)))

/-! ### The units -/

/-- Execute a symbol on one side of the wire; afterwards no symbol is in hand (log 10). -/
def execOnWire (side : Side) (i : Instr) (s : State) : Result :=
  mapNext (fun t => setWire t s.wire) (exec i (setWire s side))

/-- ENC's step. While the sink stalls nothing changes (R36); in `IDLE` there is nothing to offer (R126); in `CARRIER` it
is the carrier step (R124); in `PULSES` the symbol at `enc_k` is fetched from the frame and sent (R125). -/
def encStep (accept : Bool) (s : State) : Result :=
  if accept then
    match s.enc.phase with
    | .idle => .next s
    | .carrier => .next (emitCarrier s)
    | .pulses =>
      match symbolAt s.enc.msg s.enc.k.toNat with
      | some y => execOnWire .tx y.instr s
      | none => .fault .encPosition
  else .next s

/-- DEC's step (R141): hold on `WAIT` (R142), reject on `END` (R143) and on a pulse that matches no candidate, and
execute the symbol the head pulse is classified as. -/
def decStep (M : Matcher) (s : State) : Result :=
  if s.dec.state.busy then
    match srcHead s with
    | .wait => .next s
    | .ended => .next (frameMismatch s)
    | .pulse p =>
      match classify M s.dec.state p with
      | some y => execOnWire .rx y.instr s
      | none => .next (frameMismatch s)
  else .next s

/-! ### One step of the machine -/

/-- The turn to take, and the state in which it has been chosen: the next of the schedule, or a free one (R16; log 1). -/
def nextTurn (s : State) : Turn × State :=
  match s.schedule with
  | t :: ts => (t, setSchedule s ts)
  | [] => (Config.freeTurn s.tick, countTurn s)

/-- Take one turn: one atomic, untimed step (R16, R60, R220; log 16). A turn of an agent that is not enabled changes
nothing (log 2). -/
def takeTurn (M : Matcher) (t : Turn) (s : State) : Result :=
  match t with
  | .host => hostStep s
  | .enc accept => encStep accept s
  | .dec => decStep M s
  | .srcAppend p => .next (srcAppend s p)
  | .srcClose => .next (srcClose s)
  | .reset => .next (blockReset s)

/-- One step under a matcher. -/
def stepWith (M : Matcher) (s : State) : Result := takeTurn M (nextTurn s).1 (nextTurn s).2

/-- `n` steps under a matcher, ending at the first fault or refusal. -/
def runWith (M : Matcher) : Nat → State → Result
  | 0, s => .next s
  | n + 1, s => andThen (stepWith M s) (runWith M n)

/-! ### Where an instruction is fetched from -/

/-- The first decoder state at which a symbol is legal (R76, R105). -/
def firstState : Symbol → DecState
  | .sync => .awaitSync
  | .bit1 => .readDevice
  | .bit0 => .readDevice
  | .stop => .awaitStop1

/-- DEC in a state that admits the symbol: as it is if it does already (log 15). -/
def admitting (y : Symbol) (d : Dec) : Dec :=
  if (candidates d.state).contains y then d else { d with state := firstState y, i := 0#4 }

/-- Place a word where the next step fetches it: a symbol's word as the nominal pulse at the source's head, with DEC in
a state that admits it and DEC's turn next; any other word as the host's next write to `CMD`, with the host's turn next
(log 15). -/
def placeWord (v : Word) (s : State) : State :=
  match decodeSymbol v with
  | .ok y =>
    { s with srcQueue := y.nominalPulse :: s.srcQueue, dec := admitting y s.dec, schedule := .dec :: s.schedule }
  | .error _ => { s with hostProg := cmdLine v :: s.hostProg, schedule := .host :: s.schedule }

end Sys2Proof.Machine
end

