-- ==== Sys2Proof/Machine/Step.lean ====
section
/-! DEFINITION. One step of the machine, and the placing of an instruction where the next step fetches it. -/

namespace Sys2Proof.Machine

/-- One step: the next turn is taken, with the block's own matcher (R16, R60, R100). -/
def step (s : State) : Host.Outcome State Fault Refusal := stepWith matcher s

/-- `s` with the instruction whose bits are `w` placed where the next step fetches it. -/
def State.withFetchWord (s : State) (nbits w : Nat) : State := placeWord (BitVec.ofNat 32 (w % 2 ^ nbits)) s

end Sys2Proof.Machine
end

