-- ==== Sys2Proof/Machine/Reference.lean ====
section
/-! DEFINITION. The source's two functions as the block computes them (R129, R153), which the units' steps must agree
with (R15), and the air time of a frame (R221). -/

namespace Sys2Proof.Machine

/-- The encode function: the frame of the truncated message (R129). -/
def encodeFn (d g p : Nat) : List PulseUnit := (frame (truncatedMsg d g p)).map Symbol.nominal

/-- The sink events of one frame: the carrier declaration, then the pulse units in order (R127). -/
def frameEvents (m : MsgWord) : List SinkEvent := .carrier Config.carrierHz :: (frame m).map Symbol.event

/-- `take(cands)` at position `n`: the first matching candidate at `L[n]`, or nothing (R153). -/
def takeAt (M : Matcher) (L : List Pulse) (n : Nat) (cands : List Symbol) : Option Symbol :=
  match L[n]? with
  | none => none
  | some p => cands.find? (M p)

/-- Read `w` bits from position `n` on: the value, or nothing at the first pulse that is no bit, and the position
reached (R153). -/
def readField (M : Matcher) (L : List Pulse) : (w n v : Nat) → Option Nat × Nat
  | 0, n, v => (some v, n)
  | w + 1, n, v =>
    match takeAt M L n [.bit1, .bit0] with
    | none => (none, n)
    | some y => readField M L w (n + 1) (2 * v + if y = .bit1 then 1 else 0)

/-- `Decode(L)`: the accepted message word, or nothing, and the number of pulses consumed (R153). -/
def decodeFn (M : Matcher) (L : List Pulse) : Option MsgWord × Nat :=
  match takeAt M L 0 [.sync] with
  | none => (none, 0)
  | some _ =>
    match readField M L 5 1 0 with
    | (none, n) => (none, n)
    | (some d, n) =>
      match readField M L 15 n 0 with
      | (none, n) => (none, n)
      | (some g, n) =>
        match readField M L 4 n 0 with
        | (none, n) => (none, n)
        | (some p, n) =>
          match takeAt M L n [.stop] with
          | none => (none, n)
          | some _ =>
            match takeAt M L (n + 1) [.stop] with
            | none => (none, n + 1)
            | some _ => (some (BitVec.ofNat 24 (d <<< 19 ||| g <<< 4 ||| p)), n + 2)

/-- The duration of a symbol's nominal pulse unit in microseconds (R221). -/
def symbolAirTime (y : Symbol) : Nat := y.nominal.h.toNat + y.nominal.l.toNat

/-- The nominal air time of a frame, the sum of its durations (R221). -/
def airTime (m : MsgWord) : Nat := ((frame m).map symbolAirTime).sum

/-- The number of one bits of a message word (R221). -/
def onesCount (m : MsgWord) : Nat := ((List.range 24).filter (fun j => m.getLsbD j)).length

end Sys2Proof.Machine
end

