-- ==== Sys2Proof/Safety.lean ====
section
/-! DEFINITION. What counts as a legal state (R24 to R30, R33, R44, R158), as the end of a run and as its observation
(R222), and as the outcome of a decode (R180). -/

namespace Sys2Proof.Machine

/-- The encoder's position and flags agree (R24 to R26). -/
def Enc.legal (e : Enc) : Prop :=
  match e.phase with
  | .idle => (e.k = 0#6 ∧ e.carrier = false ∧ e.done = false) ∨ (e.k = 27#6 ∧ e.carrier = true ∧ e.done = true)
  | .carrier => e.k = 0#6 ∧ e.carrier = false ∧ e.done = false
  | .pulses => e.k.toNat ≤ 26 ∧ e.carrier = true ∧ e.done = false

/-- How many bits each accumulator has received: device, group, payload (R146 to R148, R158). -/
def Dec.received (d : Dec) : Nat × Nat × Nat :=
  match d.state with
  | .idle => (0, 0, 0)
  | .awaitSync => (0, 0, 0)
  | .readDevice => (d.i.toNat, 0, 0)
  | .readGroup => (5, d.i.toNat, 0)
  | .readPayload => (5, 15, d.i.toNat)
  | .awaitStop1 => (5, 15, 4)
  | .awaitStop2 => (5, 15, 4)
  | .accepted => (5, 15, 4)
  | .rejected => (5, 15, 4)

/-- The number of pulses consumed agrees with the position (R28, R76, R144). -/
def Dec.countLegal (d : Dec) : Prop :=
  match d.state with
  | .idle => d.consumed = 0#6
  | .awaitSync => d.consumed = 0#6
  | .readDevice => d.consumed.toNat = 1 + d.i.toNat
  | .readGroup => d.consumed.toNat = 6 + d.i.toNat
  | .readPayload => d.consumed.toNat = 21 + d.i.toNat
  | .awaitStop1 => d.consumed = 25#6
  | .awaitStop2 => d.consumed = 26#6
  | .accepted => d.consumed = 27#6
  | .rejected => d.consumed.toNat ≤ 26

/-- The decoder's position, count, accumulators and message agree (R28 to R30, R44, R158). -/
def Dec.legal (d : Dec) : Prop :=
  d.i.toNat ≤ d.state.lastIndex ∧ d.countLegal ∧
  d.accDevice.toNat < 2 ^ d.received.1 ∧ d.accGroup.toNat < 2 ^ d.received.2.1 ∧
  d.accPayload.toNat < 2 ^ d.received.2.2 ∧
  (if d.state = .accepted then d.msg = packMsg d.accDevice d.accGroup d.accPayload else d.msg = 0#24)

/-- A legal state: both units at a legal position. -/
def State.legal (s : State) : Prop := s.enc.legal ∧ s.dec.legal

/-- The events of the current or last frame that the sink has accepted so far (R26, R127). -/
def Enc.emitted (e : Enc) : List SinkEvent :=
  match e.phase with
  | .idle => if e.done then frameEvents e.msg else []
  | .carrier => []
  | .pulses => (frameEvents e.msg).take (e.k.toNat + 1)

/-- The end of a run: no unit is busy and the host has no command left to write (R222). Reads, `POLL`s and writes to the
other registers may be left: they are no commands (R81; log 21). -/
def State.runOver (s : State) : Bool := !s.enc.busy && !s.dec.state.busy && !s.hostProg.any HostLine.isCommand

/-- What is observed at the end of a run (R222). -/
structure Observation where
  sinkTrace : List SinkEvent
  decState : DecState
  decMsg : MsgWord
  decConsumed : BitVec 6
  err : Err
  left : List Pulse
deriving DecidableEq, Repr

/-- The observation of a state (R222). -/
def State.observe (s : State) : Observation where
  sinkTrace := s.sinkTrace
  decState := s.dec.state
  decMsg := s.dec.msg
  decConsumed := s.dec.consumed
  err := s.err
  left := s.srcQueue

/-- The outcome the host takes from the pair (`DEC_STATUS`, `DEC_MSG`): the message when `ACCEPT` is 1, else none
(R180, R90). -/
def readOutcome (status msg : Word) : Option Message :=
  if status.getLsbD 18 then some (Message.ofWord (msg.setWidth 24)) else none

end Sys2Proof.Machine
end

