-- ==== Sys2Proof/Certificates/Slice0/Obligations.lean ====
section
/-! DEFINITION. The statements for the provers. Each docstring names the rule of spec/ it formalises. -/

open Sys2Proof Sys2Proof.Machine

/-! ### Encoding -/

/-- R82: the command word selects exactly one row, with the row's match and mask, and the fields of its pattern. -/
def Obligations.CommandTableRows : Prop :=
  ∀ w : Word,
    (decodeCommand w = .ok .nop ↔ w &&& 0xFFFFFFFF#32 = 0x00000000#32) ∧
    (∀ d g p, decodeCommand w = .ok (.encode d g p) ↔
      w &&& 0xFF000000#32 = 0x10000000#32 ∧
      d = w.extractLsb' 19 5 ∧ g = w.extractLsb' 4 15 ∧ p = w.extractLsb' 0 4) ∧
    (decodeCommand w = .ok .decode ↔ w &&& 0xFFFFFFFF#32 = 0x20000000#32) ∧
    (decodeCommand w = .ok .clrerr ↔ w &&& 0xFFFFFFFF#32 = 0x30000000#32) ∧
    (∀ y : Symbol, decodeCommand w ≠ .ok y.instr)

/-- R83, R172: which words are reserved, and that writing one changes nothing but `err_ill`. -/
def Obligations.ReservedWordsOnlySetIll : Prop :=
  ∀ w : Word,
    ((∃ e, decodeCommand w = .error e) ↔
      4 ≤ (w.extractLsb' 28 4).toNat ∨ w.extractLsb' 24 4 ≠ 0#4 ∨
      ((w.extractLsb' 28 4 = 0#4 ∨ w.extractLsb' 28 4 = 2#4 ∨ w.extractLsb' 28 4 = 3#4) ∧
        w.extractLsb' 0 24 ≠ 0#24)) ∧
    ((∃ e, decodeCommand w = .error e) →
      ∀ s : State, performCommand w s = .next { s with err := { s.err with ill := true } })

/-- R72 to R75, R82, R85, R86: over both formats, a word decodes to an instruction exactly when it is the word the
encoder gives that instruction, for every instruction with every operand. -/
def Obligations.DecodeEncodeAgree : Prop :=
  ∀ (w : Word) (i : Instr), decodeWord w = .ok i ↔ w = encode i

/-- Words written out from the encodings of R72 to R75, R82 and R83 decode to the instruction they stand for; the
symbols' words are reserved at `CMD` (log 13). A sanity statement. -/
def Obligations.SpecWordsDecode : Prop :=
  decodeCommand 0b00000000000000000000000000000000#32 = .ok .nop ∧
  decodeCommand 0b00010000001010000000011001000011#32 = .ok (.encode 5#5 100#15 3#4) ∧
  decodeCommand 0b00010000101011010101010101011010#32 = .ok (.encode 21#5 0x5555#15 10#4) ∧
  decodeCommand 0b00100000000000000000000000000000#32 = .ok .decode ∧
  decodeCommand 0b00110000000000000000000000000000#32 = .ok .clrerr ∧
  decodeCommand 0b00010001000000000000000000000000#32 = .error .reservedRsv ∧
  decodeCommand 0b11110000000000000000000000000000#32 = .error .reservedOp ∧
  decodeCommand 0b00100000000000000000000000000001#32 = .error .nonzeroArg ∧
  decodeSymbol 0b00000001110000100010111001101000#32 = .ok .sync ∧
  decodeSymbol 0b00000100110110000000000111111110#32 = .ok .bit1 ∧
  decodeSymbol 0b00000001110101100000010100010100#32 = .ok .bit0 ∧
  decodeSymbol 0b00000001110000100000000111000010#32 = .ok .stop ∧
  (∀ y : Symbol, decodeCommand y.nominal.word = .error .reservedRsv)

/-- R72 to R75: the nominal durations and pulse-unit words of the four symbols, and where in a frame each stands. -/
def Obligations.SymbolTable : Prop :=
  Symbol.sync.nominal = ⟨450#16, 11880#16⟩ ∧ Symbol.sync.nominal.word = 0x01C22E68#32 ∧
  Symbol.bit1.nominal = ⟨1240#16, 510#16⟩ ∧ Symbol.bit1.nominal.word = 0x04D801FE#32 ∧
  Symbol.bit0.nominal = ⟨470#16, 1300#16⟩ ∧ Symbol.bit0.nominal.word = 0x01D60514#32 ∧
  Symbol.stop.nominal = ⟨450#16, 450#16⟩ ∧ Symbol.stop.nominal.word = 0x01C201C2#32 ∧
  ∀ (m : MsgWord) (k : Nat),
    ((frame m)[k]? = some .sync ↔ k = 0) ∧
    ((frame m)[k]? = some .bit1 ↔ 1 ≤ k ∧ k ≤ 24 ∧ m.getLsbD (24 - k) = true) ∧
    ((frame m)[k]? = some .bit0 ↔ 1 ≤ k ∧ k ≤ 24 ∧ m.getLsbD (24 - k) = false) ∧
    ((frame m)[k]? = some .stop ↔ k = 25 ∨ k = 26)

/-- R76: a frame is exactly 27 pulse units, and which bit of which field each index carries. -/
def Obligations.FrameLayout : Prop :=
  ∀ (d : BitVec 5) (g : BitVec 15) (p : BitVec 4),
    (frame (packMsg d g p)).length = 27 ∧
    (frame (packMsg d g p))[0]? = some .sync ∧
    (∀ k, 1 ≤ k → k ≤ 5 → (frame (packMsg d g p))[k]? = some (if d.getLsbD (5 - k) then .bit1 else .bit0)) ∧
    (∀ k, 6 ≤ k → k ≤ 20 → (frame (packMsg d g p))[k]? = some (if g.getLsbD (20 - k) then .bit1 else .bit0)) ∧
    (∀ k, 21 ≤ k → k ≤ 24 → (frame (packMsg d g p))[k]? = some (if p.getLsbD (24 - k) then .bit1 else .bit0)) ∧
    (frame (packMsg d g p))[25]? = some .stop ∧
    (frame (packMsg d g p))[26]? = some .stop

/-- R80: the layout of the message word, and that the 24 bit-units of a frame are the message word sent MSB first. -/
def Obligations.MessageWordLayout : Prop :=
  (∀ (d : BitVec 5) (g : BitVec 15) (p : BitVec 4),
    (packMsg d g p).extractLsb' 19 5 = d ∧ (packMsg d g p).extractLsb' 4 15 = g ∧
    (packMsg d g p).extractLsb' 0 4 = p) ∧
  (∀ (m : MsgWord) (k : Nat), 1 ≤ k → k ≤ 24 →
    (frame m)[k]? = some (if m.getLsbD (24 - k) then .bit1 else .bit0)) ∧
  (∀ m : MsgWord, ((frame m).drop 1).take 24 = (msbFirst m).map (fun b => if b then Symbol.bit1 else Symbol.bit0))

/-- R89, R121: the pseudo-command `ENCODE d, g, p` writes one command word, each field reduced modulo 2 to its width,
so that a value out of range gives the word of the value in range; what ENC is given are the truncated fields. -/
def Obligations.EncodeTruncatesFields : Prop :=
  ∀ d g p : Nat,
    (HostText.encode d g p).expand =
      (HostText.encodeW (BitVec.ofNat 24 ((d % 32) <<< 19 ||| (g % 32768) <<< 4 ||| p % 16))).expand ∧
    (∀ m : MsgWord, (HostText.encodeW m).expand = [.write (.off 0x00) 4 (0x10000000#32 ||| m.setWidth 32)]) ∧
    (HostText.encode d g p).expand = (HostText.encode (d % 32) (g % 32768) (p % 16)).expand ∧
    (HostText.encode (d + 32) g p).expand = (HostText.encode d g p).expand ∧
    (HostText.encode d (g + 32768) p).expand = (HostText.encode d g p).expand ∧
    (HostText.encode d g (p + 16)).expand = (HostText.encode d g p).expand ∧
    decodeCommand (encodeWord (truncatedMsg d g p)) =
      .ok (.encode (BitVec.ofNat 5 d) (BitVec.ofNat 15 g) (BitVec.ofNat 4 p))

/-- R181: messages are equal field by field, equivalently when their message words are equal. -/
def Obligations.MessageEquality : Prop :=
  (∀ a b : Message,
    (a = b ↔ a.device = b.device ∧ a.group = b.group ∧ a.payload = b.payload) ∧ (a = b ↔ a.word = b.word)) ∧
  Message.ofWord 0x280643#24 = ⟨5#5, 100#15, 3#4⟩ ∧ truncatedMsg 32 0 0 = truncatedMsg 0 0 0

/-! ### The matcher -/

/-- R101 to R103, with the model's free matcher (log 6): it has P1 and P2, and the predicates it ranges over are exactly
those that have them. -/
def Obligations.MatcherIsAnyWithRequiredProperties : Prop :=
  NominalAcceptance matcher ∧ BitDiscrimination matcher ∧
  ∀ M : Matcher, (NominalAcceptance M ∧ BitDiscrimination M) ↔ constrained M = M

/-- R108: the default matcher has P1 and P2 for every tolerance from 0 to 100, for the reasons the rule gives; at
tolerance 0 it accepts only the exact nominal pair. -/
def Obligations.DefaultMatcherHasRequiredProperties : Prop :=
  (∀ T, T ≤ 100 → NominalAcceptance (defaultMatch T) ∧ BitDiscrimination (defaultMatch T) ∧
    (∀ n, windowLo T n ≤ n ∧ n ≤ windowHi T n) ∧ windowHi T 510 ≤ 1020) ∧
  (∀ (p : Pulse) (y : Symbol), defaultMatch 0 p y = true ↔ p = y.nominalPulse)

/-- R107: the windows of `DEFAULT_MATCH(25)`. -/
def Obligations.DefaultWindows : Prop :=
  ∀ p : Pulse,
    (defaultMatch 25 p .sync = true ↔
      337 ≤ p.h.toNat ∧ p.h.toNat ≤ 562 ∧ 8910 ≤ p.l.toNat ∧ p.l.toNat ≤ 14850) ∧
    (defaultMatch 25 p .bit1 = true ↔
      930 ≤ p.h.toNat ∧ p.h.toNat ≤ 1550 ∧ 382 ≤ p.l.toNat ∧ p.l.toNat ≤ 637) ∧
    (defaultMatch 25 p .bit0 = true ↔
      352 ≤ p.h.toNat ∧ p.h.toNat ≤ 587 ∧ 975 ≤ p.l.toNat ∧ p.l.toNat ≤ 1625) ∧
    (defaultMatch 25 p .stop = true ↔
      337 ≤ p.h.toNat ∧ p.h.toNat ≤ 562 ∧ 337 ≤ p.l.toNat ∧ p.l.toNat ≤ 562)

/-- R109: under the default matcher some pulse matches both bits exactly from tolerance 46 on, and up to 45 the order of
the candidates does not matter. -/
def Obligations.DefaultBitAmbiguityThreshold : Prop :=
  ∀ T, T ≤ 100 →
    ((∃ p, defaultMatch T p .bit1 = true ∧ defaultMatch T p .bit0 = true) ↔ 46 ≤ T) ∧
    (windowLo T 1240 ≤ windowHi T 470 ↔ 46 ≤ T) ∧ (windowLo T 1300 ≤ windowHi T 510 ↔ 44 ≤ T) ∧
    windowHi 45 470 = 681 ∧ windowLo 45 1240 = 682 ∧
    (T ≤ 45 → ∀ p, [Symbol.bit1, .bit0].find? (defaultMatch T p) = [Symbol.bit0, .bit1].find? (defaultMatch T p))

/-- R110: which nominal symbols match another symbol under the default matcher, and from which tolerance on; none of the
pairs shares a candidate list, and exact frames decode as they should. -/
def Obligations.DefaultCrossMatches : Prop :=
  ∀ T, T ≤ 100 →
    (∀ y z : Symbol, y ≠ z →
      (defaultMatch T y.nominalPulse z = true ↔
        (y = .stop ∧ z = .bit1 ∧ 64 ≤ T) ∨ (y = .stop ∧ z = .bit0 ∧ 66 ≤ T) ∨ (y = .stop ∧ z = .sync ∧ 97 ≤ T) ∨
        (y = .bit0 ∧ z = .sync ∧ 90 ≤ T))) ∧
    (∀ y z : Symbol, y ≠ z → defaultMatch T y.nominalPulse z = true →
      ∀ st : DecState, ¬ (y ∈ candidates st ∧ z ∈ candidates st)) ∧
    (∀ m : MsgWord, decodeFn (defaultMatch T) ((frame m).map Symbol.nominalPulse) = (some m, 27))

/-- R105, R106: the candidates of each state, tried in order, the first match wins; BIT1 before BIT0. -/
def Obligations.ClassifyFirstCandidate : Prop :=
  ∀ (M : Matcher) (p : Pulse),
    classify M .awaitSync p = (if M p .sync then some .sync else none) ∧
    (∀ st, st = .readDevice ∨ st = .readGroup ∨ st = .readPayload →
      classify M st p = (if M p .bit1 then some .bit1 else if M p .bit0 then some .bit0 else none)) ∧
    (∀ st, st = .awaitStop1 ∨ st = .awaitStop2 → classify M st p = (if M p .stop then some .stop else none)) ∧
    (∀ st, st = .idle ∨ st = .accepted ∨ st = .rejected → classify M st p = none)

/-! ### Commands -/

/-- R170: NOP changes no state, in any state of either unit; its word is 0x00000000. Completes NOP. -/
def Obligations.NopChangesNothing : Prop :=
  ∀ s : State,
    exec .nop s = .next s ∧ performCommand 0x00000000#32 s = .next s ∧
    (∀ rest, s.hostProg = .write (.off 0x00) 4 0x00000000#32 :: rest →
      hostStep s = .next { s with hostProg := rest } ∧
      ∀ off, regValue { s with hostProg := rest } off = regValue s off)

/-- R120: an ENCODE word written while ENC is `IDLE` latches the message and begins the frame, and otherwise only sets
`err_enc_drop`; nothing else changes. Completes ENCODE. -/
def Obligations.EncodeCommand : Prop :=
  ∀ (s : State) (w : Word) (d : BitVec 5) (g : BitVec 15) (p : BitVec 4),
    (s.enc.phase = .idle → exec (.encode d g p) s = .next { s with
      enc := { phase := .carrier, k := 0#6, msg := packMsg d g p, carrier := false, done := false } }) ∧
    (s.enc.phase ≠ .idle → exec (.encode d g p) s = .next { s with err := { s.err with encDrop := true } }) ∧
    (w.extractLsb' 24 8 = 0x10#8 → s.enc.phase = .idle →
      ∃ t, performCommand w s = .next t ∧
        t = { s with enc := { phase := .carrier, k := 0#6, msg := w.extractLsb' 0 24,
                              carrier := false, done := false } } ∧
        regValue t 0x04 = 0x00000100#32) ∧
    (w.extractLsb' 24 8 = 0x10#8 → s.enc.phase ≠ .idle →
      ∃ t, performCommand w s = .next t ∧ t = { s with err := { s.err with encDrop := true } } ∧
        (regValue t 0x14).getLsbD 1 = true)

/-- R140: a DECODE written while DEC is not busy starts a decode with everything cleared, and otherwise only sets
`err_dec_drop`; the source is not touched. Completes DECODE. -/
def Obligations.DecodeCommand : Prop :=
  ∀ s : State,
    (s.dec.state = .idle ∨ s.dec.state = .accepted ∨ s.dec.state = .rejected →
      ∃ t, exec .decode s = .next t ∧ performCommand 0x20000000#32 s = .next t ∧
        t = { s with dec := { state := .awaitSync, i := 0#4, accDevice := 0#5, accGroup := 0#15, accPayload := 0#4,
                              consumed := 0#6, msg := 0#24 } } ∧
        regValue t 0x0C = 0x00010001#32 ∧ regValue t 0x10 = 0#32) ∧
    (s.dec.state.busy = true →
      ∃ t, exec .decode s = .next t ∧ performCommand 0x20000000#32 s = .next t ∧
        t = { s with err := { s.err with decDrop := true } } ∧ (regValue t 0x14).getLsbD 2 = true)

/-- R171: CLRERR makes the three error flags 0 in any state and touches nothing else. Completes CLRERR. -/
def Obligations.ClrerrCommand : Prop :=
  ∀ s : State, ∃ t, exec .clrerr s = .next t ∧ performCommand 0x30000000#32 s = .next t ∧
    t = { s with err := { ill := false, encDrop := false, decDrop := false } } ∧ regValue t 0x14 = 0#32

/-- R173: a command to its own busy unit only sets its flag; a command is never dropped because the other unit is
busy. -/
def Obligations.BusyCommandsAreDropped : Prop :=
  ∀ (s : State) (d : BitVec 5) (g : BitVec 15) (p : BitVec 4),
    (s.enc.phase ≠ .idle → exec (.encode d g p) s = .next { s with err := { s.err with encDrop := true } }) ∧
    (s.dec.state.busy = true → exec .decode s = .next { s with err := { s.err with decDrop := true } }) ∧
    (s.enc.phase = .idle → s.dec.state.busy = true →
      ∃ t, exec (.encode d g p) s = .next t ∧ t.enc.phase = .carrier ∧ t.enc.msg = packMsg d g p ∧ t.err = s.err ∧
        t.dec = s.dec) ∧
    (s.dec.state.busy = false → s.enc.phase ≠ .idle →
      ∃ t, exec .decode s = .next t ∧ t.dec.state = .awaitSync ∧ t.err = s.err ∧ t.enc = s.enc)

/-- R174: the dispatch order of a write to `CMD`. -/
def Obligations.DispatchOrder : Prop :=
  ∀ (w : Word) (s : State),
    performCommand w s =
      if 4 ≤ (w.extractLsb' 28 4).toNat ∨ w.extractLsb' 24 4 ≠ 0#4 ∨
          (w.extractLsb' 28 4 ≠ 1#4 ∧ w.extractLsb' 0 24 ≠ 0#24) then
        .next { s with err := { s.err with ill := true } }
      else if w.extractLsb' 28 4 = 0#4 then exec .nop s
      else if w.extractLsb' 28 4 = 1#4 then
        exec (.encode (w.extractLsb' 19 5) (w.extractLsb' 4 15) (w.extractLsb' 0 4)) s
      else if w.extractLsb' 28 4 = 2#4 then exec .decode s
      else exec .clrerr s

/-! ### Host access -/

/-- R176: a read returns the register's value, 0 for `CMD` and the two unmapped offsets, and changes no state of the
block; what the host has read is the model's own record (log 4). In the reset state every read returns 0. -/
def Obligations.RegisterRead : Prop :=
  (∀ (s : State) (off : Nat) (rest : List HostLine), off % 4 = 0 → off ≤ 0x1C →
    s.hostProg = .read (.off off) 4 :: rest →
    hostStep s = .next { s with hostProg := rest, hostReads := s.hostReads ++ [regValue s off] }) ∧
  (∀ s : State, regValue s 0x00 = 0#32 ∧ regValue s 0x18 = 0#32 ∧ regValue s 0x1C = 0#32) ∧
  (∀ off : Nat, regValue State.reset off = 0#32)

/-- R41, R43: the fields of the two status registers, their reserved bits, and their reset values; also what ENC_MSG
and ERR show (the parts of R42 and R45 that speak of a read). -/
def Obligations.RegisterFields : Prop :=
  (∀ s : State,
    (regValue s 0x04).extractLsb' 0 6 = s.enc.k ∧ (regValue s 0x04).extractLsb' 6 2 = 0#2 ∧
    ((regValue s 0x04).getLsbD 8 = true ↔ s.enc.phase ≠ .idle) ∧
    (regValue s 0x04).getLsbD 9 = s.enc.done ∧ (regValue s 0x04).getLsbD 10 = s.enc.carrier ∧
    (regValue s 0x04).extractLsb' 11 21 = 0#21 ∧
    (regValue s 0x08).extractLsb' 0 24 = s.enc.msg ∧ (regValue s 0x08).extractLsb' 24 8 = 0#8 ∧
    (regValue s 0x0C).extractLsb' 0 4 = s.dec.state.code ∧ (regValue s 0x0C).extractLsb' 4 4 = s.dec.i ∧
    (regValue s 0x0C).extractLsb' 8 6 = s.dec.consumed ∧ (regValue s 0x0C).extractLsb' 14 2 = 0#2 ∧
    ((regValue s 0x0C).getLsbD 16 = true ↔ 1 ≤ s.dec.state.code.toNat ∧ s.dec.state.code.toNat ≤ 6) ∧
    ((regValue s 0x0C).getLsbD 17 = true ↔ s.dec.state.code = 7#4 ∨ s.dec.state.code = 8#4) ∧
    ((regValue s 0x0C).getLsbD 18 = true ↔ s.dec.state = .accepted) ∧
    (regValue s 0x0C).extractLsb' 19 13 = 0#13 ∧
    (regValue s 0x14).getLsbD 0 = s.err.ill ∧ (regValue s 0x14).getLsbD 1 = s.err.encDrop ∧
    (regValue s 0x14).getLsbD 2 = s.err.decDrop ∧ (regValue s 0x14).extractLsb' 3 29 = 0#29) ∧
  regValue State.reset 0x04 = 0#32 ∧ regValue State.reset 0x08 = 0#32 ∧ regValue State.reset 0x0C = 0#32 ∧
  regValue State.reset 0x14 = 0#32

/-- R177: a write at offset 0x00 performs the command; at any other multiple of 4 in the window it changes no state
(the host has executed its line). -/
def Obligations.RegisterWrite : Prop :=
  ∀ (s : State) (off : Nat) (v : Word) (rest : List HostLine), s.hostProg = .write (.off off) 4 v :: rest →
    (off = 0x00 → hostStep s = performCommand v { s with hostProg := rest }) ∧
    (off % 4 = 0 → 0x04 ≤ off → off ≤ 0x1C → hostStep s = .next { s with hostProg := rest })

/-- R53, R178: an access of another width than 32 bits, or at an offset that is not a multiple of 4, is refused
(`BAD_ACCESS`). -/
def Obligations.BadAccessIsRefused : Prop :=
  ∀ (s : State) (off width : Nat) (v mask : Word) (rest : List HostLine), off < 32 →
    ((width ≠ 4 ∨ off % 4 ≠ 0) →
      (s.hostProg = .write (.off off) width v :: rest ∨ s.hostProg = .read (.off off) width :: rest) →
      hostStep s = .refused .badAccess) ∧
    (off % 4 ≠ 0 → s.hostProg = .poll off mask v :: rest → hostStep s = .refused .badAccess)

/-- R51, R52: an access at a platform address in the window is the access at the offset `a - REG_BASE`, and `REG_BASE` is
a multiple of 32. That an access outside the window is refused is the model's choice (log 9). -/
def Obligations.WindowAddressDecode : Prop :=
  Config.regBase % 32 = 0 ∧
  ∀ (s : State) (a width : Nat) (v : Word) (rest : List HostLine),
    (Config.regBase ≤ a → a < Config.regBase + 32 →
      hostStep { s with hostProg := .write (.addr a) width v :: rest } =
        hostStep { s with hostProg := .write (.off (a - Config.regBase)) width v :: rest } ∧
      hostStep { s with hostProg := .read (.addr a) width :: rest } =
        hostStep { s with hostProg := .read (.off (a - Config.regBase)) width :: rest }) ∧
    (a < Config.regBase ∨ Config.regBase + 32 ≤ a →
      hostStep { s with hostProg := .write (.addr a) width v :: rest } = .refused .outsideWindow ∧
      hostStep { s with hostProg := .read (.addr a) width :: rest } = .refused .outsideWindow)

/-- R88, with the model's convention that a `POLL` reads once a step (log 14): the line is left exactly when the masked
value is the wanted one, and nothing of the block changes. -/
def Obligations.PollReadsUntilWanted : Prop :=
  ∀ (s : State) (off : Nat) (mask v : Word) (rest : List HostLine), off % 4 = 0 → off ≤ 0x1C →
    s.hostProg = .poll off mask v :: rest →
    (regValue s off &&& mask = v →
      hostStep s = .next { s with hostProg := rest, hostReads := s.hostReads ++ [regValue s off] }) ∧
    (regValue s off &&& mask ≠ v → hostStep s = .next { s with hostReads := s.hostReads ++ [regValue s off] })

/-! ### A step runs the decoded instruction -/

/-- A step executes the instruction it decodes: at the host's turn the one of the command word being written to `CMD`
(R174); at ENC's turn the symbol at `enc_k` of the frame (R125); at DEC's turn the symbol the head pulse is classified as
(R141). Around `exec` the step removes the turn and the host's line, and takes the symbol in hand to its side of the wire
and back (log 1, log 3, log 10). -/
def Obligations.StepRunsDecodedInstruction : Prop :=
  (∀ (s : State) (w : Word) (i : Instr) (ts : List Turn) (rest : List HostLine),
    s.schedule = .host :: ts → s.hostProg = .write (.off 0x00) 4 w :: rest → decodeCommand w = .ok i →
    step s = exec i { s with schedule := ts, hostProg := rest }) ∧
  (∀ (s : State) (y : Symbol) (ts : List Turn),
    s.schedule = .enc true :: ts → s.enc.phase = .pulses → symbolAt s.enc.msg s.enc.k.toNat = some y →
    step s = mapNext (fun t => { t with wire := s.wire }) (exec y.instr { s with schedule := ts, wire := .tx })) ∧
  (∀ (s : State) (p : Pulse) (q : List Pulse) (y : Symbol) (ts : List Turn),
    s.schedule = .dec :: ts → s.dec.state.busy = true → s.srcQueue = p :: q →
    classify matcher s.dec.state p = some y →
    step s = mapNext (fun t => { t with wire := s.wire }) (exec y.instr { s with schedule := ts, wire := .rx }))

/-! ### The encoder -/

/-- R124: the carrier step. -/
def Obligations.CarrierStep : Prop :=
  ∀ s : State, s.enc.phase = .carrier →
    (∃ t, encStep true s = .next t ∧
      t = { s with sinkTrace := s.sinkTrace ++ [.carrier 0#32],
                   enc := { s.enc with carrier := true, phase := .pulses } } ∧
      (regValue t 0x04).getLsbD 10 = true) ∧
    encStep false s = .next s

/-- R125: the pulse step sends the pulse unit at `enc_k` of the frame, nominal durations exactly. -/
def Obligations.PulseStep : Prop :=
  ∀ s : State, s.enc.phase = .pulses → s.enc.k.toNat ≤ 26 →
    ∃ y, (frame s.enc.msg)[s.enc.k.toNat]? = some y ∧
      (s.enc.k.toNat < 26 → encStep true s = .next { s with
        sinkTrace := s.sinkTrace ++ [.pulse y.nominal.h y.nominal.l],
        enc := { s.enc with k := s.enc.k + 1#6 } }) ∧
      (s.enc.k.toNat = 26 → encStep true s = .next { s with
        sinkTrace := s.sinkTrace ++ [.pulse y.nominal.h y.nominal.l],
        enc := { s.enc with k := 27#6, phase := .idle, done := true } }) ∧
      (∀ t, encStep true s = .next t → (regValue t 0x04).extractLsb' 0 6 = s.enc.k + 1#6)

/-- R36, R126: while the sink stalls ENC holds and nothing changes, and in `IDLE` ENC offers nothing. -/
def Obligations.EncoderHolds : Prop :=
  ∀ s : State, encStep false s = .next s ∧ (s.enc.phase = .idle → encStep true s = .next s)

/-- R127, in every interleaving without a reset: from the write of an ENCODE that is accepted, whatever the other agents
and the sink's stalls do, until the sink has accepted its 28th offer ENC is not done, and then it is done and the events
appended are exactly the carrier declaration and the frame. -/
def Obligations.TraceOfOneFrame : Prop :=
  ∀ (M : Matcher) (s : State) (m : MsgWord) (hp : List HostLine) (ts rest : List Turn),
    s.enc.phase = .idle → s.hostProg = .write (.off 0x00) 4 (0x10000000#32 ||| m.setWidth 32) :: hp →
    s.schedule = .host :: (ts ++ .enc true :: rest) → Turn.reset ∉ ts → ts.count (.enc true) = 27 →
    (∀ n u, n ≤ ts.length → runWith M (n + 1) s = .next u → u.enc.done = false) ∧
    (∀ t, runWith M (ts.length + 2) s = .next t →
      t.sinkTrace = s.sinkTrace ++ .carrier 0#32 :: (frame m).map (fun y => .pulse y.nominal.h y.nominal.l) ∧
      t.enc = { phase := .idle, k := 27#6, msg := m, carrier := true, done := true })

/-- R126 to R128: every message word has its frame sent: an ENCODE written while ENC is `IDLE`, followed by 28 accepted
offers, ends with ENC done, and with this state. -/
def Obligations.EncodeFrameCompletes : Prop :=
  ∀ (M : Matcher) (s : State) (m : MsgWord) (hp : List HostLine) (ts : List Turn),
    s.enc.phase = .idle → s.hostProg = .write (.off 0x00) 4 (0x10000000#32 ||| m.setWidth 32) :: hp →
    s.schedule = .host :: (List.replicate 28 (.enc true) ++ ts) →
    runWith M 29 s = .next { s with
      hostProg := hp, schedule := ts,
      enc := { phase := .idle, k := 27#6, msg := m, carrier := true, done := true },
      sinkTrace := s.sinkTrace ++ .carrier 0#32 :: (frame m).map (fun y => .pulse y.nominal.h y.nominal.l) }

/-- R125, R72 to R75, on the sending side (log 10): at a legal index of `PULSES` each of SYNC, BIT1, BIT0 and STOP
completes, appends its own pulse unit to the sink's trace and advances ENC; nothing else changes. -/
def Obligations.SymbolsSentByEncoder : Prop :=
  ∀ s : State, s.wire = .tx → s.enc.phase = .pulses → s.enc.k.toNat ≤ 26 →
    ∃ e : Enc,
      (s.enc.k.toNat < 26 → e = { s.enc with k := s.enc.k + 1#6 }) ∧
      (s.enc.k.toNat = 26 → e = { s.enc with k := 27#6, phase := .idle, done := true }) ∧
      exec .sync s = .next { s with enc := e, sinkTrace := s.sinkTrace ++ [.pulse 450#16 11880#16] } ∧
      exec .bit1 s = .next { s with enc := e, sinkTrace := s.sinkTrace ++ [.pulse 1240#16 510#16] } ∧
      exec .bit0 s = .next { s with enc := e, sinkTrace := s.sinkTrace ++ [.pulse 470#16 1300#16] } ∧
      exec .stop s = .next { s with enc := e, sinkTrace := s.sinkTrace ++ [.pulse 450#16 450#16] }

/-! ### The decoder -/

/-- R141, R145 to R150, on the receiving side (log 10): at every position where it is legal each of SYNC, BIT1, BIT0 and
STOP completes, consumes the head pulse, counts it and advances DEC; nothing else changes. -/
def Obligations.SymbolsTakenByDecoder : Prop :=
  ∀ (s : State) (p : Pulse) (q : List Pulse), s.wire = .rx → s.srcQueue = p :: q →
    (s.dec.state = .awaitSync → s.dec.i = 0#4 → exec .sync s = .next { s with
      srcQueue := q
      dec := { s.dec with state := .readDevice, i := 0#4, consumed := s.dec.consumed + 1#6 } }) ∧
    (s.dec.state = .readDevice → s.dec.i.toNat ≤ 4 → ∀ b : Bool, exec (if b then .bit1 else .bit0) s = .next { s with
      srcQueue := q
      dec := { s.dec with
        accDevice := BitVec.ofNat 5 (s.dec.accDevice.toNat <<< 1 ||| b.toNat)
        state := if s.dec.i = 4#4 then .readGroup else .readDevice
        i := if s.dec.i = 4#4 then 0#4 else s.dec.i + 1#4
        consumed := s.dec.consumed + 1#6 } }) ∧
    (s.dec.state = .readGroup → s.dec.i.toNat ≤ 14 → ∀ b : Bool, exec (if b then .bit1 else .bit0) s = .next { s with
      srcQueue := q
      dec := { s.dec with
        accGroup := BitVec.ofNat 15 (s.dec.accGroup.toNat <<< 1 ||| b.toNat)
        state := if s.dec.i = 14#4 then .readPayload else .readGroup
        i := if s.dec.i = 14#4 then 0#4 else s.dec.i + 1#4
        consumed := s.dec.consumed + 1#6 } }) ∧
    (s.dec.state = .readPayload → s.dec.i.toNat ≤ 3 → ∀ b : Bool, exec (if b then .bit1 else .bit0) s = .next { s with
      srcQueue := q
      dec := { s.dec with
        accPayload := BitVec.ofNat 4 (s.dec.accPayload.toNat <<< 1 ||| b.toNat)
        state := if s.dec.i = 3#4 then .awaitStop1 else .readPayload
        i := if s.dec.i = 3#4 then 0#4 else s.dec.i + 1#4
        consumed := s.dec.consumed + 1#6 } }) ∧
    (s.dec.state = .awaitStop1 → s.dec.i = 0#4 → exec .stop s = .next { s with
      srcQueue := q
      dec := { s.dec with state := .awaitStop2, consumed := s.dec.consumed + 1#6 } }) ∧
    (s.dec.state = .awaitStop2 → s.dec.i = 0#4 → exec .stop s = .next { s with
      srcQueue := q
      dec := { s.dec with
        state := .accepted
        consumed := s.dec.consumed + 1#6
        msg := s.dec.accDevice ++ s.dec.accGroup ++ s.dec.accPayload } })

/-- R79, R126, R142, R143, R151, with the model's convention on which side a symbol is in hand (log 10, log 11): a symbol
that is not legal at DEC's position rejects the frame and consumes nothing; with no pulse at the head DEC holds or
rejects; outside the busy states DEC does nothing with it; outside `PULSES` ENC sends nothing. -/
def Obligations.SymbolOutOfPlace : Prop :=
  ∀ (s : State) (y : Symbol),
    (s.wire = .rx → s.dec.state.busy = true → y ∉ candidates s.dec.state →
      (∀ p q, s.srcQueue = p :: q →
        exec y.instr s = .next { s with dec := { s.dec with state := .rejected, i := 0#4 } })) ∧
    (s.wire = .rx → s.dec.state.busy = true → s.srcQueue = [] →
      (s.srcClosed = false → exec y.instr s = .next s) ∧
      (s.srcClosed = true →
        exec y.instr s = .next { s with dec := { s.dec with state := .rejected, i := 0#4 } })) ∧
    (s.wire = .rx → s.dec.state.busy = false → exec y.instr s = .next s) ∧
    (s.wire = .tx → s.enc.phase ≠ .pulses → exec y.instr s = .next s)

/-- R145: the step in `AWAIT_SYNC`; there is no search for a sync. -/
def Obligations.AwaitSyncStep : Prop :=
  ∀ (M : Matcher) (s : State), s.dec.state = .awaitSync → s.dec.i = 0#4 →
    (∀ p q, s.srcQueue = p :: q → M p .sync = true → decStep M s = .next { s with srcQueue := q, dec :=
      { s.dec with state := .readDevice, i := 0#4, consumed := s.dec.consumed + 1#6 } }) ∧
    (∀ p q, s.srcQueue = p :: q → M p .sync = false → decStep M s = .next { s with dec :=
      { s.dec with state := .rejected, i := 0#4 } }) ∧
    (s.srcQueue = [] → s.srcClosed = true → decStep M s = .next { s with dec :=
      { s.dec with state := .rejected, i := 0#4 } })

/-- R146 to R148: the steps of the three reading states, on a bit (BIT1 tried first), on a pulse that is none, and when
the source is exhausted; in a legal state the masks drop no 1 bit. -/
def Obligations.BitSteps : Prop :=
  ∀ (M : Matcher) (s : State),
    (∀ (p : Pulse) (q : List Pulse) (b : Bool), s.srcQueue = p :: q →
      (b = true ∧ M p .bit1 = true) ∨ (b = false ∧ M p .bit1 = false ∧ M p .bit0 = true) →
      (s.dec.state = .readDevice → s.dec.i.toNat ≤ 4 → decStep M s = .next { s with
        srcQueue := q
        dec := { s.dec with
          accDevice := BitVec.ofNat 5 (s.dec.accDevice.toNat <<< 1 ||| b.toNat)
          state := if s.dec.i = 4#4 then .readGroup else .readDevice
          i := if s.dec.i = 4#4 then 0#4 else s.dec.i + 1#4
          consumed := s.dec.consumed + 1#6 } }) ∧
      (s.dec.state = .readGroup → s.dec.i.toNat ≤ 14 → decStep M s = .next { s with
        srcQueue := q
        dec := { s.dec with
          accGroup := BitVec.ofNat 15 (s.dec.accGroup.toNat <<< 1 ||| b.toNat)
          state := if s.dec.i = 14#4 then .readPayload else .readGroup
          i := if s.dec.i = 14#4 then 0#4 else s.dec.i + 1#4
          consumed := s.dec.consumed + 1#6 } }) ∧
      (s.dec.state = .readPayload → s.dec.i.toNat ≤ 3 → decStep M s = .next { s with
        srcQueue := q
        dec := { s.dec with
          accPayload := BitVec.ofNat 4 (s.dec.accPayload.toNat <<< 1 ||| b.toNat)
          state := if s.dec.i = 3#4 then .awaitStop1 else .readPayload
          i := if s.dec.i = 3#4 then 0#4 else s.dec.i + 1#4
          consumed := s.dec.consumed + 1#6 } })) ∧
    (s.dec.state = .readDevice ∨ s.dec.state = .readGroup ∨ s.dec.state = .readPayload →
      ((∃ p q, s.srcQueue = p :: q ∧ M p .bit1 = false ∧ M p .bit0 = false) ∨
        (s.srcQueue = [] ∧ s.srcClosed = true)) →
      decStep M s = .next { s with dec := { s.dec with state := .rejected, i := 0#4 } }) ∧
    (s.legal → ∀ b : Bool,
      (s.dec.state = .readDevice → s.dec.accDevice.toNat <<< 1 ||| b.toNat < 32) ∧
      (s.dec.state = .readGroup → s.dec.accGroup.toNat <<< 1 ||| b.toNat < 32768) ∧
      (s.dec.state = .readPayload → s.dec.accPayload.toNat <<< 1 ||| b.toNat < 16))

/-- R149, R150: the two stop steps. From a legal state the second leaves `DEC_STATUS` as the rule says; it is the only
step of the machine that writes `dec_msg` with a decoded message, and a rejection leaves it 0. -/
def Obligations.StopSteps : Prop :=
  ∀ (M : Matcher) (s : State),
    (s.dec.i = 0#4 → ∀ p q, s.srcQueue = p :: q → M p .stop = true →
      (s.dec.state = .awaitStop1 → decStep M s = .next { s with
        srcQueue := q
        dec := { s.dec with state := .awaitStop2, consumed := s.dec.consumed + 1#6 } }) ∧
      (s.dec.state = .awaitStop2 → decStep M s = .next { s with
        srcQueue := q
        dec := { s.dec with
          state := .accepted
          consumed := s.dec.consumed + 1#6
          msg := s.dec.accDevice ++ s.dec.accGroup ++ s.dec.accPayload } })) ∧
    (s.dec.state = .awaitStop1 ∨ s.dec.state = .awaitStop2 →
      ((∃ p q, s.srcQueue = p :: q ∧ M p .stop = false) ∨ (s.srcQueue = [] ∧ s.srcClosed = true)) →
      decStep M s = .next { s with dec := { s.dec with state := .rejected, i := 0#4 } }) ∧
    (s.legal → s.dec.state = .awaitStop2 → ∀ t, decStep M s = .next t →
      (t.dec.state = .accepted → regValue t 0x0C = 0x00061B07#32) ∧ (t.dec.state = .rejected → t.dec.msg = 0#24)) ∧
    (∀ t, stepWith M s = .next t → t.dec.msg = s.dec.msg ∨ t.dec.msg = 0#24 ∨
      ((nextTurn s).1 = .dec ∧ s.dec.state = .awaitStop2 ∧ t.dec.state = .accepted))

/-- R190: FrameMismatch, in any busy state, when the source is exhausted or the head pulse matches no candidate. -/
def Obligations.FrameMismatchEffect : Prop :=
  ∀ (M : Matcher) (s : State), s.dec.state.busy = true →
    (s.srcQueue = [] ∧ s.srcClosed = true) ∨
      (∃ p q, s.srcQueue = p :: q ∧ ∀ y ∈ candidates s.dec.state, M p y = false) →
    ∃ t, decStep M s = .next t ∧ t = { s with dec := { s.dec with state := .rejected, i := 0#4 } } ∧
      (regValue t 0x0C).extractLsb' 0 4 = 8#4 ∧ (regValue t 0x0C).extractLsb' 8 6 = s.dec.consumed ∧
      (s.legal → t.dec.msg = 0#24)

/-- R142, R143: DEC holds while the source is empty and open, and rejects in any busy state when it is exhausted, with
nothing consumed. -/
def Obligations.HoldAndExhaustion : Prop :=
  ∀ (M : Matcher) (s : State), s.dec.state.busy = true → s.srcQueue = [] →
    (s.srcClosed = false → decStep M s = .next s) ∧
    (s.srcClosed = true → decStep M s = .next { s with dec := { s.dec with state := .rejected, i := 0#4 } })

/-- R38, R144: a step of DEC consumes nothing, or consumes exactly the head pulse, which matched a candidate, and counts
it. -/
def Obligations.ConsumesOnlyOnMatch : Prop :=
  ∀ (M : Matcher) (s t : State), decStep M s = .next t →
    (t.srcQueue = s.srcQueue ∧ t.dec.consumed = s.dec.consumed) ∨
    (∃ p y, s.srcQueue = p :: t.srcQueue ∧ t.dec.consumed = s.dec.consumed + 1#6 ∧
      y ∈ candidates s.dec.state ∧ M p y = true)

/-- R151: in `ACCEPTED` and `REJECTED` (and `IDLE`) DEC takes no step, and over any step of the machine the decoder's
elements stay until an accepted DECODE or a reset. -/
def Obligations.TerminalStatesPersist : Prop :=
  ∀ (M : Matcher) (s : State), s.dec.state.busy = false →
    decStep M s = .next s ∧
    ∀ t, stepWith M s = .next t →
      t.dec = s.dec ∨ ((nextTurn s).1 = .reset ∧ t.dec.state = .idle) ∨
      ((nextTurn s).1 = .host ∧ t.dec.state = .awaitSync ∧
        ∃ place rest, s.hostProg = .write place 4 0x20000000#32 :: rest ∧ place.offset = 0)

/-- R152: with the source closed, a DECODE and 27 turns of DEC bring the decoder to the outcome of the decode function,
whatever the matcher, with no hold on the way; the pulses left are the source's without those consumed. -/
def Obligations.DecoderComputesDecodeFunction : Prop :=
  ∀ (M : Matcher) (s : State) (hp : List HostLine) (ts : List Turn),
    s.dec.state.busy = false → s.srcClosed = true → s.hostProg = .write (.off 0x00) 4 0x20000000#32 :: hp →
    s.schedule = .host :: (List.replicate 27 .dec ++ ts) →
    ∃ d : Dec,
      runWith M 28 s = .next { s with
        hostProg := hp, schedule := ts, dec := d, srcQueue := s.srcQueue.drop d.consumed.toNat } ∧
      d.consumed.toNat = (decodeFn M s.srcQueue).2 ∧
      (∀ m, (decodeFn M s.srcQueue).1 = some m → d.state = .accepted ∧ d.msg = m ∧ d.consumed = 27#6) ∧
      ((decodeFn M s.srcQueue).1 = none → d.state = .rejected ∧ d.msg = 0#24) ∧
      (∀ n u, n ≤ 28 → runWith M n s = .next u → srcHead u ≠ .wait)

/-- R154: where a decode rejects. -/
def Obligations.RejectionPosition : Prop :=
  ∀ (M : Matcher) (L : List Pulse) (n : Nat), decodeFn M L = (none, n) →
    n < 27 ∧
    (∀ k, k < n → ∃ p y, L[k]? = some p ∧ M p y = true ∧
      y ∈ (if k = 0 then [Symbol.sync] else if k ≤ 24 then [.bit1, .bit0] else [.stop])) ∧
    (n = L.length ∨ ∃ p, L[n]? = some p ∧
      ∀ y ∈ (if n = 0 then [Symbol.sync] else if n ≤ 24 then [.bit1, .bit0] else [.stop]), M p y = false)

/-- R155: the round trip, for every matcher with P1 and P2, every message and every list of further pulses. -/
def Obligations.RoundTrip : Prop :=
  ∀ (M : Matcher), NominalAcceptance M → BitDiscrimination M →
    ∀ (d : BitVec 5) (g : BitVec 15) (p : BitVec 4) (T : List Pulse),
      decodeFn M ((frame (packMsg d g p)).map Symbol.nominalPulse ++ T) = (some (packMsg d g p), 27) ∧
      (packMsg d g p).toNat = d.toNat <<< 19 ||| g.toNat <<< 4 ||| p.toNat

/-! ### Errors, reset, the whole machine -/

/-- R33, R192, R196: over any step of the machine the three flags change only by the events named: a reserved word, a
command to its busy unit, CLRERR, or reset. -/
def Obligations.StickyFlags : Prop :=
  State.reset.err = ⟨false, false, false⟩ ∧
  ∀ (M : Matcher) (s t : State), stepWith M s = .next t →
    t.err = s.err ∨ ((nextTurn s).1 = .reset ∧ t.err = ⟨false, false, false⟩) ∨
    ((nextTurn s).1 = .host ∧ ∃ place w rest, s.hostProg = .write place 4 w :: rest ∧ place.offset = 0 ∧
      ((w = 0x30000000#32 ∧ t.err = ⟨false, false, false⟩) ∨
       ((∃ e, decodeCommand w = .error e) ∧ t.err = { s.err with ill := true }) ∨
       (w.extractLsb' 24 8 = 0x10#8 ∧ s.enc.phase ≠ .idle ∧ t.err = { s.err with encDrop := true }) ∨
       (w = 0x20000000#32 ∧ s.dec.state.busy = true ∧ t.err = { s.err with decDrop := true })))

/-- R210, R211: what the reset event sets and what it leaves, and the block's reset values. That the host's program, its
reads, the schedule, the count of free turns and the side of the wire are left too is the model's choice (log 17). -/
def Obligations.ResetEvent : Prop :=
  (∀ (M : Matcher) (s : State), ∃ t, takeTurn M .reset s = .next t ∧
    t = { s with
      enc := { phase := .idle, k := 0#6, msg := 0#24, carrier := false, done := false },
      dec := { state := .idle, i := 0#4, accDevice := 0#5, accGroup := 0#15, accPayload := 0#4, consumed := 0#6,
               msg := 0#24 },
      err := { ill := false, encDrop := false, decDrop := false } } ∧
    ∀ off, regValue t off = 0#32) ∧
  State.reset.enc = { phase := .idle, k := 0#6, msg := 0#24, carrier := false, done := false } ∧
  State.reset.dec = { state := .idle, i := 0#4, accDevice := 0#5, accGroup := 0#15, accPayload := 0#4,
                      consumed := 0#6, msg := 0#24 } ∧
  State.reset.err = { ill := false, encDrop := false, decDrop := false }

/-- R62: a step of ENC and a step of DEC commute, in every legal state. -/
def Obligations.UnitsCommute : Prop :=
  ∀ (M : Matcher) (s : State) (a : Bool), s.legal →
    andThen (encStep a s) (decStep M) = andThen (decStep M s) (encStep a)

/-- R130, R157: what a step of ENC writes is the encoder state and events appended to the trace, and it depends on the
encoder state alone; what a step of DEC writes is the decoder state and the source's queue, and it depends on the decoder
state and the source's head alone. -/
def Obligations.UnitsIsolated : Prop :=
  (∀ (a : Bool) (s t : State), encStep a s = .next t →
    ∃ (e : Enc) (evs : List SinkEvent), t = { s with enc := e, sinkTrace := s.sinkTrace ++ evs } ∧
      ∀ u : State, u.enc = s.enc → encStep a u = .next { u with enc := e, sinkTrace := u.sinkTrace ++ evs }) ∧
  (∀ (M : Matcher) (s t : State), decStep M s = .next t →
    ∃ (d : Dec) (n : Nat), n ≤ 1 ∧ t = { s with dec := d, srcQueue := s.srcQueue.drop n } ∧
      ∀ u : State, u.dec = s.dec → srcHead u = srcHead s →
        decStep M u = .next { u with dec := d, srcQueue := u.srcQueue.drop n })

/-- R24, R26, R28 to R30, R44, R158: from every legal state a step leads to a legal state, under every matcher. -/
def Obligations.StepKeepsLegal : Prop :=
  (∀ (M : Matcher) (s t : State), s.legal → stepWith M s = .next t → t.legal) ∧
  (∀ s t : State, s.legal → step s = .next t → t.legal)

/-- R210, R26, R28: the state after reset is legal, and no event of a frame has been accepted. -/
def Obligations.ResetIsLegal : Prop :=
  State.reset.legal ∧ State.reset.enc.emitted <:+ State.reset.sinkTrace

/-- R26, R30, R128: from a legal state no step ends in a fault. -/
def Obligations.LegalNeverFaults : Prop :=
  ∀ (M : Matcher) (s : State) (f : Fault), s.legal → stepWith M s ≠ .fault f

/-- R36, R61, R126, R127, over every interleaving: the sink's trace always ends with the events of the current or last
frame accepted so far, in order and with nothing between them. -/
def Obligations.TraceEndsWithFrameSoFar : Prop :=
  ∀ (M : Matcher) (s t : State), s.legal → s.enc.emitted <:+ s.sinkTrace → stepWith M s = .next t →
    t.enc.emitted <:+ t.sinkTrace

/-- R35 to R38, R61, R217: over any step the sink's trace only grows, by at most one event and only at ENC's turn; the
source's queue only grows at its tail, at the source's turn while it is open, or loses its head at DEC's turn; and a
closed source stays closed. -/
def Obligations.InterfacesAreFifo : Prop :=
  ∀ (M : Matcher) (s t : State), stepWith M s = .next t →
    (t.sinkTrace = s.sinkTrace ∨ ((nextTurn s).1 = .enc true ∧ ∃ e, t.sinkTrace = s.sinkTrace ++ [e])) ∧
    (t.srcQueue = s.srcQueue ∨
      (∃ p, (nextTurn s).1 = .srcAppend p ∧ s.srcClosed = false ∧ t.srcQueue = s.srcQueue ++ [p]) ∨
      ((nextTurn s).1 = .dec ∧ ∃ p, s.srcQueue = p :: t.srcQueue)) ∧
    (s.srcClosed = true → t.srcClosed = true)

/-- R32: no register shows the accumulators, and a decode in progress or rejected shows no message. -/
def Obligations.AccumulatorsHidden : Prop :=
  (∀ (s : State) (a : BitVec 5) (g : BitVec 15) (p : BitVec 4) (off : Nat),
    regValue { s with dec := { s.dec with accDevice := a, accGroup := g, accPayload := p } } off = regValue s off) ∧
  (∀ s : State, s.legal → s.dec.state ≠ .accepted → regValue s 0x10 = 0#32)

/-- R221: the air time of the symbols and of a frame. -/
def Obligations.AirTime : Prop :=
  symbolAirTime .sync = 12330 ∧ symbolAirTime .bit1 = 1750 ∧ symbolAirTime .bit0 = 1770 ∧ symbolAirTime .stop = 900 ∧
  (∀ m : MsgWord, airTime m = 14130 + 1750 * onesCount m + 1770 * (24 - onesCount m) ∧
    onesCount m ≤ 24 ∧ 56130 ≤ airTime m ∧ airTime m ≤ 56610) ∧
  airTime 0xFFFFFF#24 = 56130 ∧ airTime 0#24 = 56610 ∧ onesCount 0x280643#24 = 7 ∧
  airTime 0x280643#24 = 56470

/-- R180: what the host takes from `DEC_STATUS` and `DEC_MSG` in a terminal state. -/
def Obligations.DecodeResultRead : Prop :=
  ∀ s : State, s.legal → (regValue s 0x0C).getLsbD 17 = true →
    (s.dec.state = .accepted → readOutcome (regValue s 0x0C) (regValue s 0x10) =
        some ⟨(regValue s 0x10).extractLsb' 19 5, (regValue s 0x10).extractLsb' 4 15, (regValue s 0x10).extractLsb' 0 4⟩ ∧
      readOutcome (regValue s 0x0C) (regValue s 0x10) =
        some ⟨s.dec.accDevice, s.dec.accGroup, s.dec.accPayload⟩) ∧
    (s.dec.state = .rejected → readOutcome (regValue s 0x0C) (regValue s 0x10) = none ∧ regValue s 0x10 = 0#32)

/-- The model's choice (log 12) for positions that R26 and R30 say never occur: the symbol's execution stops with the
fault that names the unit. -/
def Obligations.IllegalPositionsFault : Prop :=
  (∀ (s : State) (y : Symbol), s.wire = .tx → s.enc.phase = .pulses → 27 ≤ s.enc.k.toNat →
    exec y.instr s = .fault .encPosition) ∧
  (∀ (s : State) (y : Symbol) (p : Pulse) (q : List Pulse), s.wire = .rx → s.srcQueue = p :: q →
    y ∈ candidates s.dec.state → s.dec.state.lastIndex < s.dec.i.toNat →
    exec y.instr s = .fault .decPosition)

/-- R222, with commands read as words written to `CMD` (log 21): when a run is over, what is observed there, and that
neither unit's turn nor a line the host has left changes the observation or reopens the run. -/
def Obligations.EndOfRun : Prop :=
  ∀ s : State,
    (s.runOver = true ↔
      s.enc.phase = .idle ∧ (s.dec.state = .idle ∨ s.dec.state = .accepted ∨ s.dec.state = .rejected) ∧
      ∀ place v, HostLine.write place 4 v ∈ s.hostProg → place.inWindow = true → place.offset ≠ 0x00) ∧
    s.observe = ⟨s.sinkTrace, s.dec.state, s.dec.msg, s.dec.consumed, s.err, s.srcQueue⟩ ∧
    (s.runOver = true → ∀ (M : Matcher) (a : Bool) (r : Result),
      r = hostStep s ∨ r = encStep a s ∨ r = decStep M s →
      ∀ t, r = .next t → t.observe = s.observe ∧ t.runOver = true)
end

