-- ==== Sys2Proof/Laws/Fields.lean ====
section
/-! SUPPORT. The bit fields of command words and message words as natural numbers, and how packing and taking apart a
message word undo each other (R80, R81, R86). -/

namespace Sys2Proof

theorem append_toNat_shift {a b : Nat} (x : BitVec a) (y : BitVec b) :
    (x ++ y).toNat = x.toNat * 2 ^ b + y.toNat := by
  rw [BitVec.toNat_append, ← Nat.shiftLeft_add_eq_or_of_lt y.isLt, Nat.shiftLeft_eq]

theorem extract_toNat_div {n : Nat} (x : BitVec n) (s l : Nat) :
    (x.extractLsb' s l).toNat = x.toNat / 2 ^ s % 2 ^ l := by
  rw [BitVec.extractLsb'_toNat, Nat.shiftRight_eq_div_pow]

theorem packMsg_toNat (d : BitVec 5) (g : BitVec 15) (p : BitVec 4) :
    (packMsg d g p).toNat = d.toNat * 2 ^ 19 + g.toNat * 2 ^ 4 + p.toNat := by
  have h1 := append_toNat_shift (d ++ g) p
  have h2 := append_toNat_shift d g
  unfold packMsg
  omega

theorem deviceField_toNat (m : MsgWord) : (deviceField m).toNat = m.toNat / 2 ^ 19 % 2 ^ 5 := extract_toNat_div m 19 5

theorem groupField_toNat (m : MsgWord) : (groupField m).toNat = m.toNat / 2 ^ 4 % 2 ^ 15 := extract_toNat_div m 4 15

theorem payloadField_toNat (m : MsgWord) : (payloadField m).toNat = m.toNat / 2 ^ 0 % 2 ^ 4 := extract_toNat_div m 0 4

theorem opField_toNat (w : Word) : (opField w).toNat = w.toNat / 2 ^ 28 % 2 ^ 4 := extract_toNat_div w 28 4

theorem rsvField_toNat (w : Word) : (rsvField w).toNat = w.toNat / 2 ^ 24 % 2 ^ 4 := extract_toNat_div w 24 4

theorem argField_toNat (w : Word) : (argField w).toNat = w.toNat / 2 ^ 0 % 2 ^ 24 := extract_toNat_div w 0 24

@[simp] theorem deviceField_packMsg (d : BitVec 5) (g : BitVec 15) (p : BitVec 4) :
    deviceField (packMsg d g p) = d := by
  apply BitVec.eq_of_toNat_eq
  have := d.isLt; have := g.isLt; have := p.isLt
  rw [deviceField_toNat, packMsg_toNat]
  omega

@[simp] theorem groupField_packMsg (d : BitVec 5) (g : BitVec 15) (p : BitVec 4) :
    groupField (packMsg d g p) = g := by
  apply BitVec.eq_of_toNat_eq
  have := d.isLt; have := g.isLt; have := p.isLt
  rw [groupField_toNat, packMsg_toNat]
  omega

@[simp] theorem payloadField_packMsg (d : BitVec 5) (g : BitVec 15) (p : BitVec 4) :
    payloadField (packMsg d g p) = p := by
  apply BitVec.eq_of_toNat_eq
  have := d.isLt; have := g.isLt; have := p.isLt
  rw [payloadField_toNat, packMsg_toNat]
  omega

@[simp] theorem packMsg_fields (m : MsgWord) : packMsg (deviceField m) (groupField m) (payloadField m) = m := by
  apply BitVec.eq_of_toNat_eq
  have := m.isLt
  rw [packMsg_toNat, deviceField_toNat, groupField_toNat, payloadField_toNat]
  omega

theorem encode_encode_toNat (d : BitVec 5) (g : BitVec 15) (p : BitVec 4) :
    (encode (.encode d g p)).toNat = 2 ^ 28 + (packMsg d g p).toNat := by
  have h : (encode (.encode d g p)).toNat = (0x10#8).toNat * 2 ^ 24 + (packMsg d g p).toNat :=
    append_toNat_shift 0x10#8 (packMsg d g p)
  rw [h]
  norm_num

end Sys2Proof
end

