-- ==== Sys2Proof/Laws/State.lean ====
section
/-! SUPPORT. One lemma per field per update of State, all true by unfolding, so that no later proof unfolds a record
update. -/

namespace Sys2Proof.Machine

variable (s : State)

/-! ### setEnc -/

@[simp] theorem setEnc_enc (e : Enc) : (setEnc s e).enc = e := rfl
@[simp] theorem setEnc_dec (e : Enc) : (setEnc s e).dec = s.dec := rfl
@[simp] theorem setEnc_err (e : Enc) : (setEnc s e).err = s.err := rfl
@[simp] theorem setEnc_sinkTrace (e : Enc) : (setEnc s e).sinkTrace = s.sinkTrace := rfl
@[simp] theorem setEnc_srcQueue (e : Enc) : (setEnc s e).srcQueue = s.srcQueue := rfl
@[simp] theorem setEnc_srcClosed (e : Enc) : (setEnc s e).srcClosed = s.srcClosed := rfl
@[simp] theorem setEnc_hostProg (e : Enc) : (setEnc s e).hostProg = s.hostProg := rfl
@[simp] theorem setEnc_hostReads (e : Enc) : (setEnc s e).hostReads = s.hostReads := rfl
@[simp] theorem setEnc_schedule (e : Enc) : (setEnc s e).schedule = s.schedule := rfl
@[simp] theorem setEnc_tick (e : Enc) : (setEnc s e).tick = s.tick := rfl
@[simp] theorem setEnc_wire (e : Enc) : (setEnc s e).wire = s.wire := rfl

/-! ### setDec -/

@[simp] theorem setDec_enc (d : Dec) : (setDec s d).enc = s.enc := rfl
@[simp] theorem setDec_dec (d : Dec) : (setDec s d).dec = d := rfl
@[simp] theorem setDec_err (d : Dec) : (setDec s d).err = s.err := rfl
@[simp] theorem setDec_sinkTrace (d : Dec) : (setDec s d).sinkTrace = s.sinkTrace := rfl
@[simp] theorem setDec_srcQueue (d : Dec) : (setDec s d).srcQueue = s.srcQueue := rfl
@[simp] theorem setDec_srcClosed (d : Dec) : (setDec s d).srcClosed = s.srcClosed := rfl
@[simp] theorem setDec_hostProg (d : Dec) : (setDec s d).hostProg = s.hostProg := rfl
@[simp] theorem setDec_hostReads (d : Dec) : (setDec s d).hostReads = s.hostReads := rfl
@[simp] theorem setDec_schedule (d : Dec) : (setDec s d).schedule = s.schedule := rfl
@[simp] theorem setDec_tick (d : Dec) : (setDec s d).tick = s.tick := rfl
@[simp] theorem setDec_wire (d : Dec) : (setDec s d).wire = s.wire := rfl

/-! ### setErr -/

@[simp] theorem setErr_enc (e : Err) : (setErr s e).enc = s.enc := rfl
@[simp] theorem setErr_dec (e : Err) : (setErr s e).dec = s.dec := rfl
@[simp] theorem setErr_err (e : Err) : (setErr s e).err = e := rfl
@[simp] theorem setErr_sinkTrace (e : Err) : (setErr s e).sinkTrace = s.sinkTrace := rfl
@[simp] theorem setErr_srcQueue (e : Err) : (setErr s e).srcQueue = s.srcQueue := rfl
@[simp] theorem setErr_srcClosed (e : Err) : (setErr s e).srcClosed = s.srcClosed := rfl
@[simp] theorem setErr_hostProg (e : Err) : (setErr s e).hostProg = s.hostProg := rfl
@[simp] theorem setErr_hostReads (e : Err) : (setErr s e).hostReads = s.hostReads := rfl
@[simp] theorem setErr_schedule (e : Err) : (setErr s e).schedule = s.schedule := rfl
@[simp] theorem setErr_tick (e : Err) : (setErr s e).tick = s.tick := rfl
@[simp] theorem setErr_wire (e : Err) : (setErr s e).wire = s.wire := rfl

/-! ### sinkPut -/

@[simp] theorem sinkPut_enc (e : SinkEvent) : (sinkPut s e).enc = s.enc := rfl
@[simp] theorem sinkPut_dec (e : SinkEvent) : (sinkPut s e).dec = s.dec := rfl
@[simp] theorem sinkPut_err (e : SinkEvent) : (sinkPut s e).err = s.err := rfl
@[simp] theorem sinkPut_sinkTrace (e : SinkEvent) : (sinkPut s e).sinkTrace = s.sinkTrace ++ [e] := rfl
@[simp] theorem sinkPut_srcQueue (e : SinkEvent) : (sinkPut s e).srcQueue = s.srcQueue := rfl
@[simp] theorem sinkPut_srcClosed (e : SinkEvent) : (sinkPut s e).srcClosed = s.srcClosed := rfl
@[simp] theorem sinkPut_hostProg (e : SinkEvent) : (sinkPut s e).hostProg = s.hostProg := rfl
@[simp] theorem sinkPut_hostReads (e : SinkEvent) : (sinkPut s e).hostReads = s.hostReads := rfl
@[simp] theorem sinkPut_schedule (e : SinkEvent) : (sinkPut s e).schedule = s.schedule := rfl
@[simp] theorem sinkPut_tick (e : SinkEvent) : (sinkPut s e).tick = s.tick := rfl
@[simp] theorem sinkPut_wire (e : SinkEvent) : (sinkPut s e).wire = s.wire := rfl

/-! ### srcConsume -/

@[simp] theorem srcConsume_enc : (srcConsume s).enc = s.enc := rfl
@[simp] theorem srcConsume_dec : (srcConsume s).dec = s.dec := rfl
@[simp] theorem srcConsume_err : (srcConsume s).err = s.err := rfl
@[simp] theorem srcConsume_sinkTrace : (srcConsume s).sinkTrace = s.sinkTrace := rfl
@[simp] theorem srcConsume_srcQueue : (srcConsume s).srcQueue = s.srcQueue.tail := rfl
@[simp] theorem srcConsume_srcClosed : (srcConsume s).srcClosed = s.srcClosed := rfl
@[simp] theorem srcConsume_hostProg : (srcConsume s).hostProg = s.hostProg := rfl
@[simp] theorem srcConsume_hostReads : (srcConsume s).hostReads = s.hostReads := rfl
@[simp] theorem srcConsume_schedule : (srcConsume s).schedule = s.schedule := rfl
@[simp] theorem srcConsume_tick : (srcConsume s).tick = s.tick := rfl
@[simp] theorem srcConsume_wire : (srcConsume s).wire = s.wire := rfl

/-! ### srcAppend -/

@[simp] theorem srcAppend_enc (p : Pulse) : (srcAppend s p).enc = s.enc := rfl
@[simp] theorem srcAppend_dec (p : Pulse) : (srcAppend s p).dec = s.dec := rfl
@[simp] theorem srcAppend_err (p : Pulse) : (srcAppend s p).err = s.err := rfl
@[simp] theorem srcAppend_sinkTrace (p : Pulse) : (srcAppend s p).sinkTrace = s.sinkTrace := rfl
@[simp] theorem srcAppend_srcQueue (p : Pulse) : (srcAppend s p).srcQueue = if s.srcClosed then s.srcQueue else s.srcQueue ++ [p] := rfl
@[simp] theorem srcAppend_srcClosed (p : Pulse) : (srcAppend s p).srcClosed = s.srcClosed := rfl
@[simp] theorem srcAppend_hostProg (p : Pulse) : (srcAppend s p).hostProg = s.hostProg := rfl
@[simp] theorem srcAppend_hostReads (p : Pulse) : (srcAppend s p).hostReads = s.hostReads := rfl
@[simp] theorem srcAppend_schedule (p : Pulse) : (srcAppend s p).schedule = s.schedule := rfl
@[simp] theorem srcAppend_tick (p : Pulse) : (srcAppend s p).tick = s.tick := rfl
@[simp] theorem srcAppend_wire (p : Pulse) : (srcAppend s p).wire = s.wire := rfl

/-! ### srcClose -/

@[simp] theorem srcClose_enc : (srcClose s).enc = s.enc := rfl
@[simp] theorem srcClose_dec : (srcClose s).dec = s.dec := rfl
@[simp] theorem srcClose_err : (srcClose s).err = s.err := rfl
@[simp] theorem srcClose_sinkTrace : (srcClose s).sinkTrace = s.sinkTrace := rfl
@[simp] theorem srcClose_srcQueue : (srcClose s).srcQueue = s.srcQueue := rfl
@[simp] theorem srcClose_srcClosed : (srcClose s).srcClosed = true := rfl
@[simp] theorem srcClose_hostProg : (srcClose s).hostProg = s.hostProg := rfl
@[simp] theorem srcClose_hostReads : (srcClose s).hostReads = s.hostReads := rfl
@[simp] theorem srcClose_schedule : (srcClose s).schedule = s.schedule := rfl
@[simp] theorem srcClose_tick : (srcClose s).tick = s.tick := rfl
@[simp] theorem srcClose_wire : (srcClose s).wire = s.wire := rfl

/-! ### setHostProg -/

@[simp] theorem setHostProg_enc (ls : List HostLine) : (setHostProg s ls).enc = s.enc := rfl
@[simp] theorem setHostProg_dec (ls : List HostLine) : (setHostProg s ls).dec = s.dec := rfl
@[simp] theorem setHostProg_err (ls : List HostLine) : (setHostProg s ls).err = s.err := rfl
@[simp] theorem setHostProg_sinkTrace (ls : List HostLine) : (setHostProg s ls).sinkTrace = s.sinkTrace := rfl
@[simp] theorem setHostProg_srcQueue (ls : List HostLine) : (setHostProg s ls).srcQueue = s.srcQueue := rfl
@[simp] theorem setHostProg_srcClosed (ls : List HostLine) : (setHostProg s ls).srcClosed = s.srcClosed := rfl
@[simp] theorem setHostProg_hostProg (ls : List HostLine) : (setHostProg s ls).hostProg = ls := rfl
@[simp] theorem setHostProg_hostReads (ls : List HostLine) : (setHostProg s ls).hostReads = s.hostReads := rfl
@[simp] theorem setHostProg_schedule (ls : List HostLine) : (setHostProg s ls).schedule = s.schedule := rfl
@[simp] theorem setHostProg_tick (ls : List HostLine) : (setHostProg s ls).tick = s.tick := rfl
@[simp] theorem setHostProg_wire (ls : List HostLine) : (setHostProg s ls).wire = s.wire := rfl

/-! ### hostReturn -/

@[simp] theorem hostReturn_enc (v : Word) : (hostReturn s v).enc = s.enc := rfl
@[simp] theorem hostReturn_dec (v : Word) : (hostReturn s v).dec = s.dec := rfl
@[simp] theorem hostReturn_err (v : Word) : (hostReturn s v).err = s.err := rfl
@[simp] theorem hostReturn_sinkTrace (v : Word) : (hostReturn s v).sinkTrace = s.sinkTrace := rfl
@[simp] theorem hostReturn_srcQueue (v : Word) : (hostReturn s v).srcQueue = s.srcQueue := rfl
@[simp] theorem hostReturn_srcClosed (v : Word) : (hostReturn s v).srcClosed = s.srcClosed := rfl
@[simp] theorem hostReturn_hostProg (v : Word) : (hostReturn s v).hostProg = s.hostProg := rfl
@[simp] theorem hostReturn_hostReads (v : Word) : (hostReturn s v).hostReads = s.hostReads ++ [v] := rfl
@[simp] theorem hostReturn_schedule (v : Word) : (hostReturn s v).schedule = s.schedule := rfl
@[simp] theorem hostReturn_tick (v : Word) : (hostReturn s v).tick = s.tick := rfl
@[simp] theorem hostReturn_wire (v : Word) : (hostReturn s v).wire = s.wire := rfl

/-! ### setSchedule -/

@[simp] theorem setSchedule_enc (ts : List Turn) : (setSchedule s ts).enc = s.enc := rfl
@[simp] theorem setSchedule_dec (ts : List Turn) : (setSchedule s ts).dec = s.dec := rfl
@[simp] theorem setSchedule_err (ts : List Turn) : (setSchedule s ts).err = s.err := rfl
@[simp] theorem setSchedule_sinkTrace (ts : List Turn) : (setSchedule s ts).sinkTrace = s.sinkTrace := rfl
@[simp] theorem setSchedule_srcQueue (ts : List Turn) : (setSchedule s ts).srcQueue = s.srcQueue := rfl
@[simp] theorem setSchedule_srcClosed (ts : List Turn) : (setSchedule s ts).srcClosed = s.srcClosed := rfl
@[simp] theorem setSchedule_hostProg (ts : List Turn) : (setSchedule s ts).hostProg = s.hostProg := rfl
@[simp] theorem setSchedule_hostReads (ts : List Turn) : (setSchedule s ts).hostReads = s.hostReads := rfl
@[simp] theorem setSchedule_schedule (ts : List Turn) : (setSchedule s ts).schedule = ts := rfl
@[simp] theorem setSchedule_tick (ts : List Turn) : (setSchedule s ts).tick = s.tick := rfl
@[simp] theorem setSchedule_wire (ts : List Turn) : (setSchedule s ts).wire = s.wire := rfl

/-! ### countTurn -/

@[simp] theorem countTurn_enc : (countTurn s).enc = s.enc := rfl
@[simp] theorem countTurn_dec : (countTurn s).dec = s.dec := rfl
@[simp] theorem countTurn_err : (countTurn s).err = s.err := rfl
@[simp] theorem countTurn_sinkTrace : (countTurn s).sinkTrace = s.sinkTrace := rfl
@[simp] theorem countTurn_srcQueue : (countTurn s).srcQueue = s.srcQueue := rfl
@[simp] theorem countTurn_srcClosed : (countTurn s).srcClosed = s.srcClosed := rfl
@[simp] theorem countTurn_hostProg : (countTurn s).hostProg = s.hostProg := rfl
@[simp] theorem countTurn_hostReads : (countTurn s).hostReads = s.hostReads := rfl
@[simp] theorem countTurn_schedule : (countTurn s).schedule = s.schedule := rfl
@[simp] theorem countTurn_tick : (countTurn s).tick = s.tick + 1 := rfl
@[simp] theorem countTurn_wire : (countTurn s).wire = s.wire := rfl

/-! ### setWire -/

@[simp] theorem setWire_enc (w : Side) : (setWire s w).enc = s.enc := rfl
@[simp] theorem setWire_dec (w : Side) : (setWire s w).dec = s.dec := rfl
@[simp] theorem setWire_err (w : Side) : (setWire s w).err = s.err := rfl
@[simp] theorem setWire_sinkTrace (w : Side) : (setWire s w).sinkTrace = s.sinkTrace := rfl
@[simp] theorem setWire_srcQueue (w : Side) : (setWire s w).srcQueue = s.srcQueue := rfl
@[simp] theorem setWire_srcClosed (w : Side) : (setWire s w).srcClosed = s.srcClosed := rfl
@[simp] theorem setWire_hostProg (w : Side) : (setWire s w).hostProg = s.hostProg := rfl
@[simp] theorem setWire_hostReads (w : Side) : (setWire s w).hostReads = s.hostReads := rfl
@[simp] theorem setWire_schedule (w : Side) : (setWire s w).schedule = s.schedule := rfl
@[simp] theorem setWire_tick (w : Side) : (setWire s w).tick = s.tick := rfl
@[simp] theorem setWire_wire (w : Side) : (setWire s w).wire = w := rfl

/-! ### consume -/

@[simp] theorem consume_enc : (consume s).enc = s.enc := rfl
@[simp] theorem consume_dec : (consume s).dec = { s.dec with consumed := s.dec.consumed + 1#6 } := rfl
@[simp] theorem consume_err : (consume s).err = s.err := rfl
@[simp] theorem consume_sinkTrace : (consume s).sinkTrace = s.sinkTrace := rfl
@[simp] theorem consume_srcQueue : (consume s).srcQueue = s.srcQueue.tail := rfl
@[simp] theorem consume_srcClosed : (consume s).srcClosed = s.srcClosed := rfl
@[simp] theorem consume_hostProg : (consume s).hostProg = s.hostProg := rfl
@[simp] theorem consume_hostReads : (consume s).hostReads = s.hostReads := rfl
@[simp] theorem consume_schedule : (consume s).schedule = s.schedule := rfl
@[simp] theorem consume_tick : (consume s).tick = s.tick := rfl
@[simp] theorem consume_wire : (consume s).wire = s.wire := rfl

/-! ### frameMismatch -/

@[simp] theorem frameMismatch_enc : (frameMismatch s).enc = s.enc := rfl
@[simp] theorem frameMismatch_dec : (frameMismatch s).dec = { s.dec with state := .rejected, i := 0#4 } := rfl
@[simp] theorem frameMismatch_err : (frameMismatch s).err = s.err := rfl
@[simp] theorem frameMismatch_sinkTrace : (frameMismatch s).sinkTrace = s.sinkTrace := rfl
@[simp] theorem frameMismatch_srcQueue : (frameMismatch s).srcQueue = s.srcQueue := rfl
@[simp] theorem frameMismatch_srcClosed : (frameMismatch s).srcClosed = s.srcClosed := rfl
@[simp] theorem frameMismatch_hostProg : (frameMismatch s).hostProg = s.hostProg := rfl
@[simp] theorem frameMismatch_hostReads : (frameMismatch s).hostReads = s.hostReads := rfl
@[simp] theorem frameMismatch_schedule : (frameMismatch s).schedule = s.schedule := rfl
@[simp] theorem frameMismatch_tick : (frameMismatch s).tick = s.tick := rfl
@[simp] theorem frameMismatch_wire : (frameMismatch s).wire = s.wire := rfl

/-! ### startDecode -/

@[simp] theorem startDecode_enc : (startDecode s).enc = s.enc := rfl
@[simp] theorem startDecode_dec : (startDecode s).dec = { Dec.reset with state := .awaitSync } := rfl
@[simp] theorem startDecode_err : (startDecode s).err = s.err := rfl
@[simp] theorem startDecode_sinkTrace : (startDecode s).sinkTrace = s.sinkTrace := rfl
@[simp] theorem startDecode_srcQueue : (startDecode s).srcQueue = s.srcQueue := rfl
@[simp] theorem startDecode_srcClosed : (startDecode s).srcClosed = s.srcClosed := rfl
@[simp] theorem startDecode_hostProg : (startDecode s).hostProg = s.hostProg := rfl
@[simp] theorem startDecode_hostReads : (startDecode s).hostReads = s.hostReads := rfl
@[simp] theorem startDecode_schedule : (startDecode s).schedule = s.schedule := rfl
@[simp] theorem startDecode_tick : (startDecode s).tick = s.tick := rfl
@[simp] theorem startDecode_wire : (startDecode s).wire = s.wire := rfl

/-! ### startEncode -/

@[simp] theorem startEncode_enc (m : MsgWord) : (startEncode s m).enc = { Enc.reset with phase := .carrier, msg := m } := rfl
@[simp] theorem startEncode_dec (m : MsgWord) : (startEncode s m).dec = s.dec := rfl
@[simp] theorem startEncode_err (m : MsgWord) : (startEncode s m).err = s.err := rfl
@[simp] theorem startEncode_sinkTrace (m : MsgWord) : (startEncode s m).sinkTrace = s.sinkTrace := rfl
@[simp] theorem startEncode_srcQueue (m : MsgWord) : (startEncode s m).srcQueue = s.srcQueue := rfl
@[simp] theorem startEncode_srcClosed (m : MsgWord) : (startEncode s m).srcClosed = s.srcClosed := rfl
@[simp] theorem startEncode_hostProg (m : MsgWord) : (startEncode s m).hostProg = s.hostProg := rfl
@[simp] theorem startEncode_hostReads (m : MsgWord) : (startEncode s m).hostReads = s.hostReads := rfl
@[simp] theorem startEncode_schedule (m : MsgWord) : (startEncode s m).schedule = s.schedule := rfl
@[simp] theorem startEncode_tick (m : MsgWord) : (startEncode s m).tick = s.tick := rfl
@[simp] theorem startEncode_wire (m : MsgWord) : (startEncode s m).wire = s.wire := rfl

/-! ### emitCarrier -/

@[simp] theorem emitCarrier_enc : (emitCarrier s).enc = { s.enc with carrier := true, phase := .pulses } := rfl
@[simp] theorem emitCarrier_dec : (emitCarrier s).dec = s.dec := rfl
@[simp] theorem emitCarrier_err : (emitCarrier s).err = s.err := rfl
@[simp] theorem emitCarrier_sinkTrace : (emitCarrier s).sinkTrace = s.sinkTrace ++ [.carrier Config.carrierHz] := rfl
@[simp] theorem emitCarrier_srcQueue : (emitCarrier s).srcQueue = s.srcQueue := rfl
@[simp] theorem emitCarrier_srcClosed : (emitCarrier s).srcClosed = s.srcClosed := rfl
@[simp] theorem emitCarrier_hostProg : (emitCarrier s).hostProg = s.hostProg := rfl
@[simp] theorem emitCarrier_hostReads : (emitCarrier s).hostReads = s.hostReads := rfl
@[simp] theorem emitCarrier_schedule : (emitCarrier s).schedule = s.schedule := rfl
@[simp] theorem emitCarrier_tick : (emitCarrier s).tick = s.tick := rfl
@[simp] theorem emitCarrier_wire : (emitCarrier s).wire = s.wire := rfl

/-! ### raiseIll -/

@[simp] theorem raiseIll_enc : (raiseIll s).enc = s.enc := rfl
@[simp] theorem raiseIll_dec : (raiseIll s).dec = s.dec := rfl
@[simp] theorem raiseIll_err : (raiseIll s).err = { s.err with ill := true } := rfl
@[simp] theorem raiseIll_sinkTrace : (raiseIll s).sinkTrace = s.sinkTrace := rfl
@[simp] theorem raiseIll_srcQueue : (raiseIll s).srcQueue = s.srcQueue := rfl
@[simp] theorem raiseIll_srcClosed : (raiseIll s).srcClosed = s.srcClosed := rfl
@[simp] theorem raiseIll_hostProg : (raiseIll s).hostProg = s.hostProg := rfl
@[simp] theorem raiseIll_hostReads : (raiseIll s).hostReads = s.hostReads := rfl
@[simp] theorem raiseIll_schedule : (raiseIll s).schedule = s.schedule := rfl
@[simp] theorem raiseIll_tick : (raiseIll s).tick = s.tick := rfl
@[simp] theorem raiseIll_wire : (raiseIll s).wire = s.wire := rfl

/-! ### raiseEncDrop -/

@[simp] theorem raiseEncDrop_enc : (raiseEncDrop s).enc = s.enc := rfl
@[simp] theorem raiseEncDrop_dec : (raiseEncDrop s).dec = s.dec := rfl
@[simp] theorem raiseEncDrop_err : (raiseEncDrop s).err = { s.err with encDrop := true } := rfl
@[simp] theorem raiseEncDrop_sinkTrace : (raiseEncDrop s).sinkTrace = s.sinkTrace := rfl
@[simp] theorem raiseEncDrop_srcQueue : (raiseEncDrop s).srcQueue = s.srcQueue := rfl
@[simp] theorem raiseEncDrop_srcClosed : (raiseEncDrop s).srcClosed = s.srcClosed := rfl
@[simp] theorem raiseEncDrop_hostProg : (raiseEncDrop s).hostProg = s.hostProg := rfl
@[simp] theorem raiseEncDrop_hostReads : (raiseEncDrop s).hostReads = s.hostReads := rfl
@[simp] theorem raiseEncDrop_schedule : (raiseEncDrop s).schedule = s.schedule := rfl
@[simp] theorem raiseEncDrop_tick : (raiseEncDrop s).tick = s.tick := rfl
@[simp] theorem raiseEncDrop_wire : (raiseEncDrop s).wire = s.wire := rfl

/-! ### raiseDecDrop -/

@[simp] theorem raiseDecDrop_enc : (raiseDecDrop s).enc = s.enc := rfl
@[simp] theorem raiseDecDrop_dec : (raiseDecDrop s).dec = s.dec := rfl
@[simp] theorem raiseDecDrop_err : (raiseDecDrop s).err = { s.err with decDrop := true } := rfl
@[simp] theorem raiseDecDrop_sinkTrace : (raiseDecDrop s).sinkTrace = s.sinkTrace := rfl
@[simp] theorem raiseDecDrop_srcQueue : (raiseDecDrop s).srcQueue = s.srcQueue := rfl
@[simp] theorem raiseDecDrop_srcClosed : (raiseDecDrop s).srcClosed = s.srcClosed := rfl
@[simp] theorem raiseDecDrop_hostProg : (raiseDecDrop s).hostProg = s.hostProg := rfl
@[simp] theorem raiseDecDrop_hostReads : (raiseDecDrop s).hostReads = s.hostReads := rfl
@[simp] theorem raiseDecDrop_schedule : (raiseDecDrop s).schedule = s.schedule := rfl
@[simp] theorem raiseDecDrop_tick : (raiseDecDrop s).tick = s.tick := rfl
@[simp] theorem raiseDecDrop_wire : (raiseDecDrop s).wire = s.wire := rfl

/-! ### clearErr -/

@[simp] theorem clearErr_enc : (clearErr s).enc = s.enc := rfl
@[simp] theorem clearErr_dec : (clearErr s).dec = s.dec := rfl
@[simp] theorem clearErr_err : (clearErr s).err = Err.reset := rfl
@[simp] theorem clearErr_sinkTrace : (clearErr s).sinkTrace = s.sinkTrace := rfl
@[simp] theorem clearErr_srcQueue : (clearErr s).srcQueue = s.srcQueue := rfl
@[simp] theorem clearErr_srcClosed : (clearErr s).srcClosed = s.srcClosed := rfl
@[simp] theorem clearErr_hostProg : (clearErr s).hostProg = s.hostProg := rfl
@[simp] theorem clearErr_hostReads : (clearErr s).hostReads = s.hostReads := rfl
@[simp] theorem clearErr_schedule : (clearErr s).schedule = s.schedule := rfl
@[simp] theorem clearErr_tick : (clearErr s).tick = s.tick := rfl
@[simp] theorem clearErr_wire : (clearErr s).wire = s.wire := rfl

/-! ### blockReset -/

@[simp] theorem blockReset_enc : (blockReset s).enc = Enc.reset := rfl
@[simp] theorem blockReset_dec : (blockReset s).dec = Dec.reset := rfl
@[simp] theorem blockReset_err : (blockReset s).err = Err.reset := rfl
@[simp] theorem blockReset_sinkTrace : (blockReset s).sinkTrace = s.sinkTrace := rfl
@[simp] theorem blockReset_srcQueue : (blockReset s).srcQueue = s.srcQueue := rfl
@[simp] theorem blockReset_srcClosed : (blockReset s).srcClosed = s.srcClosed := rfl
@[simp] theorem blockReset_hostProg : (blockReset s).hostProg = s.hostProg := rfl
@[simp] theorem blockReset_hostReads : (blockReset s).hostReads = s.hostReads := rfl
@[simp] theorem blockReset_schedule : (blockReset s).schedule = s.schedule := rfl
@[simp] theorem blockReset_tick : (blockReset s).tick = s.tick := rfl
@[simp] theorem blockReset_wire : (blockReset s).wire = s.wire := rfl

end Sys2Proof.Machine
end

