-- ==== Sys2Proof/Laws/Ops.lean ====
section
/-! SUPPORT. What each shared operation can do, said once: an equation or an inversion lemma per operation, which later
proofs cite instead of unfolding it. -/

namespace Sys2Proof.Machine

/-! ### Outcomes -/

theorem mapNext_eq_next {f : State → State} {r : Result} {t : State} :
    mapNext f r = .next t ↔ ∃ u, r = .next u ∧ t = f u := by
  cases r <;> simp [mapNext, eq_comm]

theorem andThen_eq_next {f : State → Result} {r : Result} {t : State} :
    andThen r f = .next t ↔ ∃ u, r = .next u ∧ f u = .next t := by
  cases r <;> simp [andThen]

@[simp] theorem andThen_next (s : State) (f : State → Result) : andThen (.next s) f = f s := rfl

/-! ### Source head, candidates, classification -/

theorem srcHead_pulse {s : State} {p : Pulse} : srcHead s = .pulse p ↔ ∃ q, s.srcQueue = p :: q := by
  unfold srcHead
  cases h : s.srcQueue with
  | nil => cases s.srcClosed <;> simp
  | cons x q => simp

theorem srcHead_wait {s : State} : srcHead s = .wait ↔ s.srcQueue = [] ∧ s.srcClosed = false := by
  unfold srcHead
  cases h : s.srcQueue with
  | nil => cases s.srcClosed <;> simp
  | cons x q => simp

theorem srcHead_ended {s : State} : srcHead s = .ended ↔ s.srcQueue = [] ∧ s.srcClosed = true := by
  unfold srcHead
  cases h : s.srcQueue with
  | nil => cases s.srcClosed <;> simp
  | cons x q => simp

theorem classify_mem {M : Matcher} {st : DecState} {p : Pulse} {y : Symbol} (h : classify M st p = some y) :
    y ∈ candidates st :=
  List.mem_of_find?_eq_some h

theorem classify_matches {M : Matcher} {st : DecState} {p : Pulse} {y : Symbol} (h : classify M st p = some y) :
    M p y = true :=
  List.find?_some h

theorem classify_none {M : Matcher} {st : DecState} {p : Pulse} :
    classify M st p = none ↔ ∀ y ∈ candidates st, M p y = false := by
  simp [classify, List.find?_eq_none]

/-! ### The units' moves -/

theorem txSymbol_next {y : Symbol} {s t : State} (h : txSymbol y s = .next t) :
    (s.enc.phase ≠ .pulses ∧ t = s) ∨
    (s.enc.phase = .pulses ∧ s.enc.k.toNat ≤ 26 ∧ t = setEnc (sinkPut s y.event) s.enc.advance) := by
  unfold txSymbol at h
  split at h
  · exact .inl ⟨‹_›, by simpa using h.symm⟩
  · split at h
    · exact .inr ⟨not_not.mp ‹_›, ‹_›, by simpa using h.symm⟩
    · cases h

theorem takeSymbol_next {y : Symbol} {s t : State} (h : takeSymbol y s = .next t) :
    s.dec.i.toNat ≤ s.dec.state.lastIndex ∧ t = setDec (consume s) ((consume s).dec.advance y) := by
  unfold takeSymbol at h
  split at h
  · exact ⟨‹_›, by simpa using h.symm⟩
  · cases h

theorem rxSymbol_next {y : Symbol} {s t : State} (h : rxSymbol y s = .next t) :
    t = s ∨ (s.dec.state.busy = true ∧ t = frameMismatch s) ∨
    (s.dec.state.busy = true ∧ y ∈ candidates s.dec.state ∧ (∃ p, srcHead s = .pulse p) ∧
      takeSymbol y s = .next t) := by
  unfold rxSymbol at h
  split at h
  · next hb =>
    split at h
    · exact .inl (by simpa using h.symm)
    · exact .inr (.inl ⟨hb, by simpa using h.symm⟩)
    · next p hp =>
      split at h
      · next hc => exact .inr (.inr ⟨hb, by simpa using hc, ⟨p, hp⟩, h⟩)
      · exact .inr (.inl ⟨hb, by simpa using h.symm⟩)
  · exact .inl (by simpa using h.symm)

theorem exec_symbol (y : Symbol) (s : State) : exec y.instr s = wireSymbol y s := by
  cases y <;> rfl

/-- ENC's execution of a symbol at a legal index, with the model's side field back where it was. -/
theorem execOnWire_tx {y : Symbol} {s : State} (hp : s.enc.phase = .pulses) (hk : s.enc.k.toNat ≤ 26) :
    execOnWire .tx y.instr s = .next (setEnc (sinkPut s y.event) s.enc.advance) := by
  simp [execOnWire, exec_symbol, wireSymbol, txSymbol, hp, hk, mapNext]
  rfl

/-- DEC's execution of the symbol it classified its head pulse as: exactly `takeSymbol`. -/
theorem execOnWire_rx {y : Symbol} {s : State} {p : Pulse} (hb : s.dec.state.busy = true)
    (hp : srcHead s = .pulse p) (hc : y ∈ candidates s.dec.state) :
    execOnWire .rx y.instr s = takeSymbol y s := by
  have h1 : srcHead (setWire s .rx) = .pulse p := hp
  have h2 : (candidates s.dec.state).contains y = true := by simpa using hc
  by_cases hi : s.dec.i.toNat ≤ s.dec.state.lastIndex
  · simp only [execOnWire, exec_symbol, wireSymbol, setWire_wire, rxSymbol, setWire_dec, hb, h1, h2, takeSymbol, hi,
      if_true, mapNext]
    rfl
  · simp only [execOnWire, exec_symbol, wireSymbol, setWire_wire, rxSymbol, setWire_dec, hb, h1, h2, takeSymbol, hi,
      if_true, if_false, mapNext]

@[simp] theorem Dec.advance_consumed (d : Dec) (y : Symbol) : (d.advance y).consumed = d.consumed := by
  unfold Dec.advance Dec.deviceBit Dec.groupBit Dec.payloadBit
  split <;> (try split) <;> rfl

/-- Only the second stop step writes `dec_msg`. -/
theorem Dec.advance_msg {d : Dec} (y : Symbol) (h : d.state ≠ .awaitStop2) : (d.advance y).msg = d.msg := by
  unfold Dec.advance Dec.deviceBit Dec.groupBit Dec.payloadBit
  split <;> (try split) <;> first | rfl | contradiction

@[simp] theorem Enc.advance_msg (e : Enc) : e.advance.msg = e.msg := by unfold Enc.advance; split <;> rfl

@[simp] theorem Enc.advance_carrier (e : Enc) : e.advance.carrier = e.carrier := by unfold Enc.advance; split <;> rfl

@[simp] theorem Enc.advance_k (e : Enc) : e.advance.k = e.k + 1#6 := by unfold Enc.advance; split <;> rfl

/-- DEC's step without the detour over the instruction: hold, reject, or take the symbol. -/
theorem decStep_eq (M : Matcher) (s : State) :
    decStep M s =
      if s.dec.state.busy then
        match srcHead s with
        | .wait => .next s
        | .ended => .next (frameMismatch s)
        | .pulse p =>
          match classify M s.dec.state p with
          | some y => takeSymbol y s
          | none => .next (frameMismatch s)
      else .next s := by
  unfold decStep
  split
  · next hb =>
    cases hh : srcHead s with
    | wait => rfl
    | ended => rfl
    | pulse p =>
      cases hc : classify M s.dec.state p with
      | none => simp [hc]
      | some y => simpa [hc] using execOnWire_rx hb hh (classify_mem hc)
  · rfl

theorem decStep_next {M : Matcher} {s t : State} (h : decStep M s = .next t) :
    t = s ∨ (s.dec.state.busy = true ∧ t = frameMismatch s) ∨
    (s.dec.state.busy = true ∧ s.dec.i.toNat ≤ s.dec.state.lastIndex ∧
      ∃ p q y, s.srcQueue = p :: q ∧ classify M s.dec.state p = some y ∧
        t = setDec (consume s) ((consume s).dec.advance y)) := by
  rw [decStep_eq] at h
  split at h
  · next hb =>
    split at h
    · exact .inl (by simpa using h.symm)
    · exact .inr (.inl ⟨hb, by simpa using h.symm⟩)
    · next p hp =>
      split at h
      · next y hy =>
        obtain ⟨hi, ht⟩ := takeSymbol_next h
        obtain ⟨q, hq⟩ := srcHead_pulse.mp hp
        exact .inr (.inr ⟨hb, hi, p, q, y, hq, hy, ht⟩)
      · exact .inr (.inl ⟨hb, by simpa using h.symm⟩)
  · exact .inl (by simpa using h.symm)

theorem symbolAt_isSome {m : MsgWord} {k : Nat} : (∃ y, symbolAt m k = some y) ↔ k ≤ 26 := by
  unfold symbolAt
  split
  · simp; omega
  · split
    · simp; omega
    · split <;> simp <;> omega

theorem encStep_next {a : Bool} {s t : State} (h : encStep a s = .next t) :
    t = s ∨ (a = true ∧ s.enc.phase = .carrier ∧ t = emitCarrier s) ∨
    (a = true ∧ s.enc.phase = .pulses ∧ s.enc.k.toNat ≤ 26 ∧
      ∃ y, symbolAt s.enc.msg s.enc.k.toNat = some y ∧ t = setEnc (sinkPut s y.event) s.enc.advance) := by
  unfold encStep at h
  split at h
  · next ha =>
    split at h
    · exact .inl (by simpa using h.symm)
    · exact .inr (.inl ⟨ha, ‹_›, by simpa using h.symm⟩)
    · next hp =>
      split at h
      · next y hy =>
        have hk : s.enc.k.toNat ≤ 26 := symbolAt_isSome.mp ⟨y, hy⟩
        rw [execOnWire_tx hp hk] at h
        exact .inr (.inr ⟨ha, hp, hk, y, hy, by simpa using h.symm⟩)
      · cases h
  · exact .inl (by simpa using h.symm)

/-! ### The host -/

/-- A line of the host is a command exactly when it writes 32 bits at the address of `CMD`. -/
theorem isCommand_iff {l : HostLine} : l.isCommand = true ↔
    ∃ place v, l = .write place 4 v ∧ place.inWindow = true ∧ place.offset = 0x00 := by
  cases l with
  | write place width v =>
    simp only [HostLine.isCommand, Bool.and_eq_true, beq_iff_eq, HostLine.write.injEq]
    exact ⟨fun ⟨⟨hw, h4⟩, h0⟩ => ⟨place, v, ⟨rfl, h4, rfl⟩, hw, h0⟩,
      fun ⟨_, _, ⟨rfl, h4, rfl⟩, hw, h0⟩ => ⟨⟨hw, h4⟩, h0⟩⟩
  | read place width => simp [HostLine.isCommand]
  | poll off mask v => simp [HostLine.isCommand]

theorem guardAccess_next {place : Place} {width : Nat} {r : Result} {t : State}
    (h : guardAccess place width r = .next t) :
    place.inWindow = true ∧ accessAdmitted place.offset width = true ∧ r = .next t := by
  unfold guardAccess at h
  split at h
  · split at h
    · exact ⟨‹_›, ‹_›, h⟩
    · cases h
  · cases h

/-- What a command word can do: one of the four commands, or the flag `err_ill`. -/
theorem performCommand_cases (w : Word) (s : State) :
    (∃ e, decodeCommand w = .error e ∧ performCommand w s = .next (raiseIll s)) ∨
    (∃ i, decodeCommand w = .ok i ∧ performCommand w s = exec i s) := by
  unfold performCommand
  cases h : decodeCommand w with
  | ok i => exact .inr ⟨i, rfl, rfl⟩
  | error e => exact .inl ⟨e, rfl, rfl⟩

/-- The decoder of command words answers a command, never a symbol. -/
theorem decodeCommand_command {w : Word} {i : Instr} (h : decodeCommand w = .ok i) :
    i = .nop ∨ (∃ d g p, i = .encode d g p) ∨ i = .decode ∨ i = .clrerr := by
  unfold decodeCommand plainCommand at h
  split at h
  · cases h
  all_goals split at h
  · split at h <;> simp_all
  · split at h
    · exact .inr (.inl ⟨_, _, _, (Except.ok.inj h).symm⟩)
    · split at h
      · split at h <;> simp_all
      · split at h
        · split at h <;> simp_all
        · cases h

/-- What `exec` does for a command: it always answers a next state, one of these. -/
theorem performCommand_next (w : Word) (s : State) :
    ∃ t, performCommand w s = .next t ∧
      (t = s ∨ t = raiseIll s ∨ t = raiseEncDrop s ∨ t = raiseDecDrop s ∨ t = clearErr s ∨
        (s.enc.phase = .idle ∧ ∃ m, t = startEncode s m) ∨ (s.dec.state.busy = false ∧ t = startDecode s)) := by
  rcases performCommand_cases w s with ⟨e, -, h⟩ | ⟨i, hi, h⟩
  · exact ⟨_, h, .inr (.inl rfl)⟩
  · rcases decodeCommand_command hi with rfl | ⟨d, g, p, rfl⟩ | rfl | rfl
    · exact ⟨s, h, .inl rfl⟩
    · by_cases hp : s.enc.phase = .idle
      · exact ⟨_, by rw [h]; simp [exec, execEncode, hp]; rfl, by simp [hp]⟩
      · exact ⟨_, by rw [h]; simp [exec, execEncode, hp]; rfl, by simp⟩
    · by_cases hb : s.dec.state.busy = true
      · exact ⟨_, by rw [h]; simp [exec, execDecode, hb]; rfl, by simp⟩
      · exact ⟨_, by rw [h]; simp [exec, execDecode, hb]; rfl, by simp [hb]⟩
    · exact ⟨_, h, by simp⟩

/-- What the host's step can do. -/
theorem hostStep_next {s t : State} (h : hostStep s = .next t) :
    (s.hostProg = [] ∧ t = s) ∨
    (∃ place v rest, s.hostProg = .write place 4 v :: rest ∧ place.inWindow = true ∧
      ((place.offset = 0 ∧ performCommand v (setHostProg s rest) = .next t) ∨
        (place.offset ≠ 0 ∧ t = setHostProg s rest))) ∨
    (∃ place rest, s.hostProg = .read place 4 :: rest ∧ place.inWindow = true ∧
      t = hostReturn (setHostProg s rest) (regValue s place.offset)) ∨
    (∃ off mask v rest, s.hostProg = .poll off mask v :: rest ∧ (Place.off off).inWindow = true ∧
      t = hostReturn (if regValue s off &&& mask = v then setHostProg s rest else s) (regValue s off)) := by
  unfold hostStep at h
  split at h
  · next hp => exact .inl ⟨hp, by simpa using h.symm⟩
  · next place width v rest hp =>
    obtain ⟨hw, ha, hr⟩ := guardAccess_next h
    have : width = 4 := by simp [accessAdmitted] at ha; exact ha.1
    subst this
    refine .inr (.inl ⟨place, v, rest, hp, hw, ?_⟩)
    unfold regWrite at hr
    split at hr
    · exact .inl ⟨‹_›, hr⟩
    · exact .inr ⟨‹_›, by simpa using hr.symm⟩
  · next place width rest hp =>
    obtain ⟨hw, ha, hr⟩ := guardAccess_next h
    have : width = 4 := by simp [accessAdmitted] at ha; exact ha.1
    subst this
    exact .inr (.inr (.inl ⟨place, rest, hp, hw, by simpa using hr.symm⟩))
  · next off mask v rest hp =>
    obtain ⟨hw, -, hr⟩ := guardAccess_next h
    exact .inr (.inr (.inr ⟨off, mask, v, rest, hp, hw, by simpa using hr.symm⟩))

/-! ### One step -/

theorem nextTurn_cons {s : State} {t : Turn} {ts : List Turn} (h : s.schedule = t :: ts) :
    nextTurn s = (t, setSchedule s ts) := by
  simp [nextTurn, h]

theorem stepWith_cons {M : Matcher} {s : State} {t : Turn} {ts : List Turn} (h : s.schedule = t :: ts) :
    stepWith M s = takeTurn M t (setSchedule s ts) := by
  simp [stepWith, nextTurn_cons h]

/-- Choosing the turn changes nothing of the block, the collaborators or the host. -/
theorem nextTurn_frame (s : State) :
    (nextTurn s).2.enc = s.enc ∧ (nextTurn s).2.dec = s.dec ∧ (nextTurn s).2.err = s.err ∧
    (nextTurn s).2.sinkTrace = s.sinkTrace ∧ (nextTurn s).2.srcQueue = s.srcQueue ∧
    (nextTurn s).2.srcClosed = s.srcClosed ∧ (nextTurn s).2.hostProg = s.hostProg ∧
    (nextTurn s).2.hostReads = s.hostReads ∧ (nextTurn s).2.wire = s.wire := by
  unfold nextTurn
  split <;> simp

theorem runWith_succ_of_next {M : Matcher} {n : Nat} {s t : State} (h : stepWith M s = .next t) :
    runWith M (n + 1) s = runWith M n t := by
  simp [runWith, h]

theorem runWith_add (M : Matcher) (m n : Nat) (s : State) :
    runWith M (m + n) s = andThen (runWith M m s) (runWith M n) := by
  induction m generalizing s with
  | zero => simp [runWith]
  | succ m ih =>
    rw [Nat.succ_add]
    simp only [runWith]
    cases h : stepWith M s with
    | next t => simpa using ih t
    | fault r => rfl
    | refused r => rfl

end Sys2Proof.Machine
end

