-- ==== Sys2Proof/Laws/Frame.lean ====
section
/-! SUPPORT. The frame index by index (R76, R123): its elements are `symbolAt`, its length is 27. -/

namespace Sys2Proof

open Machine

theorem frame_eq_map (m : MsgWord) : frame m = (List.range 27).map (fun k => (symbolAt m k).getD .sync) := by
  unfold frame
  rw [← List.filterMap_eq_map]
  apply List.filterMap_congr
  intro k hk
  obtain ⟨y, hy⟩ := (symbolAt_isSome (m := m)).mpr (show k ≤ 26 by simp [Config.nPulses] at hk; omega)
  simp [hy]

@[simp] theorem frame_length (m : MsgWord) : (frame m).length = 27 := by simp [frame_eq_map]

/-- `FRAME(m)[k]` is `SYMBOL_AT(m, k)`, at every index. -/
theorem frame_getElem? (m : MsgWord) (k : Nat) : (frame m)[k]? = symbolAt m k := by
  rw [frame_eq_map]
  by_cases h : k ≤ 26
  · obtain ⟨y, hy⟩ := (symbolAt_isSome (m := m)).mpr h
    simp [hy, List.getElem?_range (show k < 27 by omega)]
  · simp [symbolAt, show ¬ k = 0 by omega, show ¬ k ≤ 24 by omega, h]
    omega

theorem symbolAt_bit {m : MsgWord} {k : Nat} (h1 : 1 ≤ k) (h2 : k ≤ 24) :
    symbolAt m k = some (bitSym (m.getLsbD (24 - k))) := by
  rw [symbolAt, if_neg (by omega), if_pos h2]

end Sys2Proof
end

