-- ==== Sys2Proof/Laws/PerInstr.lean ====
section
/-! SUPPORT. The family TableRow: for every instruction, the encoder's word has the fixed bits that the row of
spec/opcode_table.json gives (its match under its mask). One lemma per constructor. -/

namespace Sys2Proof.Laws

/-- The row's `mask` in spec/opcode_table.json. -/
def rowMask : Instr → Word
  | .encode _ _ _ => 0xFF000000#32
  | .nop => 0xFFFFFFFF#32
  | .decode => 0xFFFFFFFF#32
  | .clrerr => 0xFFFFFFFF#32
  | .sync => 0xFFFFFFFF#32
  | .bit1 => 0xFFFFFFFF#32
  | .bit0 => 0xFFFFFFFF#32
  | .stop => 0xFFFFFFFF#32

/-- The row's `match` in spec/opcode_table.json. -/
def rowMatch : Instr → Word
  | .nop => 0x00000000#32
  | .encode _ _ _ => 0x10000000#32
  | .decode => 0x20000000#32
  | .clrerr => 0x30000000#32
  | .sync => 0x01C22E68#32
  | .bit1 => 0x04D801FE#32
  | .bit0 => 0x01D60514#32
  | .stop => 0x01C201C2#32

/-- The encoded word has the row's fixed bits. -/
def TableRow.Statement (i : Instr) : Prop := encode i &&& rowMask i = rowMatch i

theorem TableRow.nop : TableRow.Statement .nop := by unfold TableRow.Statement; decide

theorem TableRow.encode (d : BitVec 5) (g : BitVec 15) (p : BitVec 4) : TableRow.Statement (.encode d g p) := by
  have hlt := (packMsg d g p).isLt
  have hn := encode_encode_toNat d g p
  have hs : Sys2Proof.encode (.encode d g p) = 0x10000000#32 ||| (packMsg d g p).setWidth 32 := by
    apply BitVec.eq_of_toNat_eq
    rw [hn, BitVec.toNat_or, BitVec.toNat_setWidth, Nat.mod_eq_of_lt (by omega)]
    exact Nat.two_pow_add_eq_or_of_lt (i := 28) (by omega) 1 |>.trans (by simp)
  unfold TableRow.Statement
  rw [hs]
  apply BitVec.eq_of_getLsbD_eq
  intro j hj
  interval_cases j <;> simp [rowMask, rowMatch]

theorem TableRow.decode : TableRow.Statement .decode := by unfold TableRow.Statement; decide

theorem TableRow.clrerr : TableRow.Statement .clrerr := by unfold TableRow.Statement; decide

theorem TableRow.sync : TableRow.Statement .sync := by unfold TableRow.Statement; decide

theorem TableRow.bit1 : TableRow.Statement .bit1 := by unfold TableRow.Statement; decide

theorem TableRow.bit0 : TableRow.Statement .bit0 := by unfold TableRow.Statement; decide

theorem TableRow.stop : TableRow.Statement .stop := by unfold TableRow.Statement; decide

end Sys2Proof.Laws
end

