-- ==== Sys2Proof/Tests/Slice0.lean ====
section
/-! SUPPORT. Tests: words written out from the encodings (95_test_vectors.md V1 to V16), the refusals of WellFormed, one
step of each instruction against the spec's vectors (V30 to V111), and, for every statement with hypotheses, a state and
operands that meet them together, at the ends of their ranges. -/

namespace Sys2Proof.Tests

open Sys2Proof.Machine

/-! ### Helpers -/

/-- The outcome is a next state with a property. -/
def nextHas (r : Result) (p : State → Bool) : Bool :=
  match r with
  | .next s => p s
  | .fault _ => false
  | .refused _ => false

/-- ENC at a position, sending message word 0x280643 (L1-1). -/
def encAt (ph : EncPhase) (k : BitVec 6) : State :=
  { State.reset with enc := { phase := ph, k := k, msg := 0x280643#24, carrier := false, done := false } }

/-- ENC in `PULSES`, as it is after the carrier step. -/
def pulsesAt (k : BitVec 6) : State :=
  { State.reset with enc := { phase := .pulses, k := k, msg := 0x280643#24, carrier := true, done := false } }

/-- DEC at a position with a count and the source's queue. -/
def decAt (st : DecState) (i : BitVec 4) (c : BitVec 6) (q : List Pulse) : State :=
  { State.reset with dec := { Dec.reset with state := st, i := i, consumed := c }, srcQueue := q }

/-- DEC in `AWAIT_STOP2` after the bits of message (5, 100, 3). -/
def beforeLastStop (q : List Pulse) : State :=
  { State.reset with
    dec := { Dec.reset with state := .awaitStop2, consumed := 26#6, accDevice := 5#5, accGroup := 100#15, accPayload := 3#4 }
    srcQueue := q }

/-- The default matcher at 25 percent (R107). -/
def match25 : Matcher := defaultMatch 25

/-- A frame in the letters of R91. -/
def letters (l : List Symbol) : List Char := l.map Symbol.letter

/-! ### Decoding -/

/-- V11. -/
theorem test_decode_nop : decodeCommand 0b00000000000000000000000000000000#32 = .ok .nop := by decide

/-- V10: device 5, group 100, payload 3. -/
theorem test_decode_encode :
    decodeCommand 0b00010000001010000000011001000011#32 = .ok (.encode 5#5 100#15 3#4) := by decide

/-- V12. -/
theorem test_decode_decode : decodeCommand 0b00100000000000000000000000000000#32 = .ok .decode := by decide

/-- V13. -/
theorem test_decode_clrerr : decodeCommand 0b00110000000000000000000000000000#32 = .ok .clrerr := by decide

/-- V1: high 450 = 0000000111000010, low 11880 = 0010111001101000. -/
theorem test_decode_sync : decodeWord 0b00000001110000100010111001101000#32 = .ok .sync := by decide

/-- V2: high 1240 = 0000010011011000, low 510 = 0000000111111110. -/
theorem test_decode_bit1 : decodeWord 0b00000100110110000000000111111110#32 = .ok .bit1 := by decide

/-- V3: high 470 = 0000000111010110, low 1300 = 0000010100010100. -/
theorem test_decode_bit0 : decodeWord 0b00000001110101100000010100010100#32 = .ok .bit0 := by decide

/-- V4: high 450 and low 450 = 0000000111000010. -/
theorem test_decode_stop : decodeWord 0b00000001110000100000000111000010#32 = .ok .stop := by decide

/-- V14 to V16: reserved command words, rejected by name. -/
theorem test_decode_reserved :
    decodeCommand 0x00000001#32 = .error .nonzeroArg ∧ decodeCommand 0x20000001#32 = .error .nonzeroArg ∧
    decodeCommand 0x30000100#32 = .error .nonzeroArg ∧ decodeCommand 0x11000000#32 = .error .reservedRsv ∧
    decodeCommand 0x1F280643#32 = .error .reservedRsv ∧ decodeCommand 0x40000000#32 = .error .reservedOp ∧
    decodeCommand 0xF0000000#32 = .error .reservedOp ∧ decodeSymbol 0x01C201C3#32 = .error .notASymbol := by decide

/-- The table's words (spec/opcode_table.json) through the host's entry point. -/
theorem test_decodeTableWord :
    decodeTableWord 32 0x00000000 = some .nop ∧ decodeTableWord 32 0x10FFFFFF = some (.encode 31#5 32767#15 15#4) ∧
    decodeTableWord 32 0x20000000 = some .decode ∧ decodeTableWord 32 0x30000000 = some .clrerr ∧
    decodeTableWord 32 0x01C22E68 = some .sync ∧ decodeTableWord 32 0x04D801FE = some .bit1 ∧
    decodeTableWord 32 0x01D60514 = some .bit0 ∧ decodeTableWord 32 0x01C201C2 = some .stop ∧
    decodeTableWord 32 0x11000000 = none := by decide

/-- V8: message (21, 0x5555, 10) is the command word 0x10AD555A. -/
theorem test_encode_fields : encode (.encode 21#5 0x5555#15 10#4) = 0x10AD555A#32 := by decide

/-! ### WellFormed -/

/-- Each check refuses an ill-formed line: the width (R53), the alignment (R53), the window (R51). -/
theorem test_wellFormed_refuses :
    (HostLine.write (.off 0x00) 2 0#32).wellFormed = false ∧ (HostLine.read (.off 0x02) 4).wellFormed = false ∧
    (HostLine.read (.off 0x20) 4).wellFormed = false ∧ (HostLine.poll 0x0D 1#32 1#32).wellFormed = false ∧
    (HostLine.poll 0x24 1#32 1#32).wellFormed = false ∧ (HostLine.read (.off 0x1C) 4).wellFormed = true := by decide

/-! ### Placing an instruction and running it -/

/-- Every row's word, placed where the next step fetches it, runs as the first instruction after reset. -/
theorem test_withFetchWord :
    nextHas (step (State.reset.withFetchWord 32 0x00000000)) (fun s => s.hostProg.isEmpty && s.err == Err.reset) ∧
    nextHas (step (State.reset.withFetchWord 32 0x10280643))
      (fun s => s.enc.phase == .carrier && s.enc.msg == 0x280643#24) ∧
    nextHas (step (State.reset.withFetchWord 32 0x20000000)) (fun s => s.dec.state == .awaitSync) ∧
    nextHas (step (State.reset.withFetchWord 32 0x30000000)) (fun s => s.err == Err.reset) ∧
    nextHas (step (State.reset.withFetchWord 32 0x01C22E68)) (fun s => s.dec.state == .readDevice) ∧
    nextHas (step (State.reset.withFetchWord 32 0x04D801FE)) (fun s => s.dec.accDevice == 1#5 && s.dec.i == 1#4) ∧
    nextHas (step (State.reset.withFetchWord 32 0x01D60514)) (fun s => s.dec.accDevice == 0#5 && s.dec.i == 1#4) ∧
    nextHas (step (State.reset.withFetchWord 32 0x01C201C2)) (fun s => s.dec.state == .awaitStop2) := by decide

/-! ### One step of each instruction -/

/-- V100. -/
theorem test_nop_keeps_flags :
    nextHas (exec .nop { State.reset with err := ⟨true, false, true⟩ }) (fun s => errReg s == 0x5#32) := by decide

/-- V31: ENCODE 0x10280643 from reset. -/
theorem test_encode_starts :
    nextHas (performCommand 0x10280643#32 State.reset)
      (fun s => encStatusReg s == 0x00000100#32 && encMsgReg s == 0x00280643#32) := by decide

/-- V38: a second ENCODE is dropped and the frame goes on. -/
theorem test_encode_dropped :
    nextHas (performCommand 0x10000000#32 (pulsesAt 1#6))
      (fun s => errReg s == 0x2#32 && s.enc.msg == 0x280643#24 && s.enc.k == 1#6) := by decide

/-- V108, V109: DECODE from `ACCEPTED`. -/
theorem test_decode_starts :
    nextHas (exec .decode { State.reset with dec := { Dec.reset with state := .accepted, msg := 0x280643#24 } })
      (fun s => decStatusReg s == 0x00010001#32 && decMsgReg s == 0#32) := by decide

/-- V106. -/
theorem test_decode_dropped :
    nextHas (exec .decode (decAt .readGroup 3#4 9#6 []))
      (fun s => errReg s == 0x4#32 && decStatusReg s == 0x00010933#32) := by decide

/-- V101. -/
theorem test_clrerr_clears :
    nextHas (exec .clrerr { State.reset with err := ⟨true, true, true⟩ }) (fun s => errReg s == 0#32) := by decide

/-- V104: a reserved word to a busy ENC raises ILL only. -/
theorem test_reserved_before_busy :
    nextHas (performCommand 0x11000000#32 (pulsesAt 1#6)) (fun s => errReg s == 0x1#32) := by decide

/-- V33: the pulse step at k = 0 sends SYNC. -/
theorem test_sync_sent :
    nextHas (encStep true (pulsesAt 0#6))
      (fun s => s.sinkTrace == [.pulse 450#16 11880#16] && encStatusReg s == 0x00000501#32) := by decide

/-- V91: the first step of a decode takes SYNC. -/
theorem test_sync_taken :
    nextHas (decStep match25 (decAt .awaitSync 0#4 0#6 [⟨337#32, 8910#32⟩]))
      (fun s => decStatusReg s == 0x00010102#32 && s.srcQueue.isEmpty) := by decide

/-- V34: the pulse step at k = 3 sends BIT1. -/
theorem test_bit1_sent :
    nextHas (encStep true (pulsesAt 3#6))
      (fun s => s.sinkTrace == [.pulse 1240#16 510#16] && encStatusReg s == 0x00000504#32) := by decide

/-- R146: bits 0, 0, 1, 0 and then BIT1 leave `acc_device = 5` and the group field next. -/
theorem test_bit1_taken :
    nextHas (decStep match25 { decAt .readDevice 4#4 5#6 [⟨1000#32, 600#32⟩] with
        dec := { Dec.reset with state := .readDevice, i := 4#4, consumed := 5#6, accDevice := 2#5 } })
      (fun s => s.dec.accDevice == 5#5 && s.dec.state == .readGroup && s.dec.i == 0#4) := by decide

/-- L1-1: index 1 carries device bit 4 = 0, which is BIT0. -/
theorem test_bit0_sent :
    nextHas (encStep true (pulsesAt 1#6)) (fun s => s.sinkTrace == [.pulse 470#16 1300#16]) := by decide

/-- V94: the ninth step leaves the group field at index 3. -/
theorem test_bit0_taken :
    nextHas (decStep match25 (decAt .readGroup 2#4 8#6 [⟨587#32, 1625#32⟩]))
      (fun s => decStatusReg s == 0x00010933#32) := by decide

/-- V36: the pulse step at k = 26 sends STOP and ends the frame. -/
theorem test_stop_sent :
    nextHas (encStep true (pulsesAt 26#6))
      (fun s => s.sinkTrace == [.pulse 450#16 450#16] && encStatusReg s == 0x0000061B#32) := by decide

/-- V98: the second STOP accepts the frame of (5, 100, 3). -/
theorem test_stop_taken :
    nextHas (decStep match25 (beforeLastStop [⟨450#32, 450#32⟩]))
      (fun s => decStatusReg s == 0x00061B07#32 && decMsgReg s == 0x00280643#32) := by decide

/-- L1-6: a pulse that is neither bit rejects and stays at the head. -/
theorem test_mismatch_leaves_pulse :
    nextHas (decStep match25 (decAt .readDevice 2#4 3#6 [⟨800#32, 900#32⟩]))
      (fun s => decStatusReg s == 0x00020308#32 && s.srcQueue == [⟨800#32, 900#32⟩]) := by decide

/-- V32 and V37: the carrier step, and a stalled sink. -/
theorem test_carrier_and_stall :
    nextHas (encStep true (encAt .carrier 0#6))
      (fun s => s.sinkTrace == [.carrier 0#32] && encStatusReg s == 0x00000500#32) ∧
    nextHas (encStep false (encAt .carrier 0#6)) (fun s => s.sinkTrace.isEmpty && encStatusReg s == 0x00000100#32) := by
  decide

/-- V25: the frame of (5, 100, 3) in the notation of R91. -/
theorem test_frame_letters :
    letters (frame 0x280643#24) =
      ['S', '0', '0', '1', '0', '1', '0', '0', '0', '0', '0', '0', '0', '0', '1', '1', '0', '0', '1', '0', '0',
       '0', '0', '1', '1', 'P', 'P'] := by decide

/-- V70, V71, V77: an exact frame, an empty source and a 25th bit under the decode function. -/
theorem test_decode_function :
    decodeFn match25 ((frame 0x280643#24).map Symbol.nominalPulse) = (some 0x280643#24, 27) ∧
    decodeFn match25 [] = (none, 0) ∧
    decodeFn match25 (((frame 0x280643#24).take 25).map Symbol.nominalPulse ++ [⟨470#32, 1300#32⟩]) = (none, 25) := by
  decide

/-! ### Witnesses: the hypotheses of the statements can be met -/

/-- Legality of a concrete state, from its two units. -/
theorem pulsesAt_legal : (pulsesAt 26#6).legal :=
  ⟨⟨by decide, rfl, rfl⟩, ⟨by decide, rfl, by decide, by decide, by decide, rfl⟩⟩

theorem beforeLastStop_legal (q : List Pulse) : (beforeLastStop q).legal :=
  ⟨.inl ⟨rfl, rfl, rfl⟩,
   ⟨show (0#4).toNat ≤ 0 by decide, rfl, show (5#5).toNat < 2 ^ 5 by decide, show (100#15).toNat < 2 ^ 15 by decide,
    show (3#4).toNat < 2 ^ 4 by decide, rfl⟩⟩

theorem witness_ReservedWordsOnlySetIll : ∃ e, decodeCommand 0x11000000#32 = .error e := ⟨_, rfl⟩

theorem witness_FrameLayout : 1 ≤ 1 ∧ 5 ≤ 5 ∧ 6 ≤ 6 ∧ 20 ≤ 20 ∧ 21 ≤ 21 ∧ 24 ≤ 24 := by decide

theorem witness_MessageWordLayout : (1 ≤ 1 ∧ 1 ≤ 24) ∧ (1 ≤ 24 ∧ 24 ≤ 24) := by decide

/-- The tolerance of the statements about the default matcher (R108 to R110), at both ends and at R109's threshold. -/
theorem witness_DefaultMatcher_tolerance : 0 ≤ 100 ∧ 45 ≤ 45 ∧ 46 ≤ 100 ∧ 100 ≤ 100 := by decide

/-- R110's second clause: nominal STOP matches BIT1 at tolerance 64. -/
theorem witness_DefaultCrossMatches : defaultMatch 64 Symbol.stop.nominalPulse .bit1 = true := by decide

theorem witness_ClassifyFirstCandidate :
    (DecState.readPayload = .readDevice ∨ DecState.readPayload = .readGroup ∨ DecState.readPayload = .readPayload) ∧
    (DecState.awaitStop2 = .awaitStop1 ∨ DecState.awaitStop2 = .awaitStop2) ∧
    (DecState.rejected = .idle ∨ DecState.rejected = .accepted ∨ DecState.rejected = .rejected) := by decide

theorem witness_NopChangesNothing :
    { State.reset with hostProg := [cmdLine 0#32] }.hostProg = .write (.off 0x00) 4 0x00000000#32 :: [] := rfl

theorem witness_EncodeCommand :
    (0x10FFFFFF#32).extractLsb' 24 8 = 0x10#8 ∧ State.reset.enc.phase = .idle ∧ (pulsesAt 26#6).enc.phase ≠ .idle := by
  decide

theorem witness_DecodeCommand :
    State.reset.dec.state = .idle ∧ (decAt .awaitStop2 0#4 26#6 []).dec.state.busy = true := by decide

theorem witness_BusyCommandsAreDropped :
    (pulsesAt 0#6).enc.phase ≠ .idle ∧ (pulsesAt 0#6).dec.state.busy = false ∧
    (decAt .awaitSync 0#4 0#6 []).dec.state.busy = true ∧ (decAt .awaitSync 0#4 0#6 []).enc.phase = .idle := by decide

theorem witness_RegisterRead :
    0x1C % 4 = 0 ∧ 0x1C ≤ 0x1C ∧
    { State.reset with hostProg := [.read (.off 0x1C) 4] }.hostProg = .read (.off 0x1C) 4 :: [] := by decide

theorem witness_RegisterWrite :
    { State.reset with hostProg := [.write (.off 0x00) 4 7#32] }.hostProg = .write (.off 0x00) 4 7#32 :: [] ∧
    { State.reset with hostProg := [.write (.off 0x14) 4 7#32] }.hostProg = .write (.off 0x14) 4 7#32 :: [] ∧
    0x14 % 4 = 0 ∧ 0x04 ≤ 0x14 ∧ 0x14 ≤ 0x1C := by decide

theorem witness_BadAccessIsRefused :
    31 < 32 ∧ 31 % 4 ≠ 0 ∧ 2 ≠ 4 ∧
    { State.reset with hostProg := [.read (.off 31) 2] }.hostProg = .read (.off 31) 2 :: [] ∧
    { State.reset with hostProg := [.poll 31 1#32 1#32] }.hostProg = .poll 31 1#32 1#32 :: [] := by decide

theorem witness_WindowAddressDecode :
    (Config.regBase ≤ Config.regBase + 31 ∧ Config.regBase + 31 < Config.regBase + 32) ∧
    Config.regBase + 32 ≤ Config.regBase + 32 := by omega

theorem witness_PollReadsUntilWanted :
    0x04 % 4 = 0 ∧ 0x04 ≤ 0x1C ∧
    { State.reset with hostProg := [.poll 0x04 0x300#32 0x200#32] }.hostProg = .poll 0x04 0x300#32 0x200#32 :: [] ∧
    regValue State.reset 0x04 &&& 0x300#32 ≠ 0x200#32 ∧ regValue State.reset 0x04 &&& 0x300#32 = 0#32 := by decide

/-- A state for each of the three fetches. -/
theorem witness_StepRunsDecodedInstruction :
    (({ State.reset with schedule := [.host], hostProg := [cmdLine 0x20000000#32] } : State).schedule = .host :: [] ∧
      decodeCommand 0x20000000#32 = .ok .decode) ∧
    ({ pulsesAt 26#6 with schedule := [.enc true] }.schedule = .enc true :: [] ∧
      (pulsesAt 26#6).enc.phase = .pulses ∧ symbolAt 0x280643#24 26 = some .stop) ∧
    ({ decAt .awaitSync 0#4 0#6 [⟨450#32, 11880#32⟩] with schedule := [.dec] }.schedule = .dec :: [] ∧
      (decAt .awaitSync 0#4 0#6 []).dec.state.busy = true ∧
      classify matcher .awaitSync ⟨450#32, 11880#32⟩ = some .sync) := by decide

theorem witness_CarrierStep : (encAt .carrier 0#6).enc.phase = .carrier := rfl

theorem witness_PulseStep :
    (pulsesAt 0#6).enc.phase = .pulses ∧ (pulsesAt 0#6).enc.k.toNat ≤ 26 ∧ (pulsesAt 25#6).enc.k.toNat < 26 ∧
    (pulsesAt 26#6).enc.k.toNat = 26 := by decide

theorem witness_EncoderHolds : State.reset.enc.phase = .idle := rfl

/-- An accepted ENCODE, the source closing, 27 accepted offers and then the 28th. -/
theorem witness_TraceOfOneFrame :
    State.reset.enc.phase = .idle ∧ Turn.reset ∉ Turn.srcClose :: List.replicate 27 (Turn.enc true) ∧
    (Turn.srcClose :: List.replicate 27 (Turn.enc true)).count (.enc true) = 27 ∧
    nextHas (runWith match25 30 { State.reset with
      hostProg := [.write (.off 0x00) 4 (0x10000000#32 ||| (0x280643#24).setWidth 32)]
      schedule := .host :: ((.srcClose :: List.replicate 27 (.enc true)) ++ .enc true :: []) })
      (fun t => t.enc.done) = true := by decide

theorem witness_EncodeFrameCompletes :
    ∃ s : State, s.enc.phase = .idle ∧
      s.hostProg = .write (.off 0x00) 4 (0x10000000#32 ||| (0xFFFFFF#24).setWidth 32) :: [] ∧
      s.schedule = .host :: (List.replicate 28 (.enc true) ++ []) :=
  ⟨{ State.reset with
      hostProg := [.write (.off 0x00) 4 (0x10000000#32 ||| (0xFFFFFF#24).setWidth 32)]
      schedule := .host :: (List.replicate 28 (.enc true) ++ []) }, rfl, rfl, rfl⟩

theorem witness_SymbolsSentByEncoder :
    { pulsesAt 26#6 with wire := .tx }.wire = .tx ∧ (pulsesAt 26#6).enc.phase = .pulses ∧
    (pulsesAt 26#6).enc.k.toNat = 26 ∧ (pulsesAt 0#6).enc.k.toNat < 26 := by decide

/-- Each position of `SymbolsTakenByDecoder` and of the decoder's steps, the reading states at both ends. -/
theorem witness_SymbolsTakenByDecoder :
    (decAt .awaitSync 0#4 0#6 [⟨450#32, 11880#32⟩]).wire = .rx ∧
    (decAt .awaitSync 0#4 0#6 [⟨450#32, 11880#32⟩]).srcQueue = ⟨450#32, 11880#32⟩ :: [] ∧
    (decAt .awaitSync 0#4 0#6 []).dec.state = .awaitSync ∧ (decAt .awaitSync 0#4 0#6 []).dec.i = 0#4 ∧
    (decAt .readDevice 4#4 5#6 []).dec.i.toNat ≤ 4 ∧ (decAt .readGroup 14#4 20#6 []).dec.i.toNat ≤ 14 ∧
    (decAt .readPayload 3#4 24#6 []).dec.i.toNat ≤ 3 ∧ (decAt .awaitStop1 0#4 25#6 []).dec.state = .awaitStop1 ∧
    (decAt .awaitStop2 0#4 26#6 []).dec.state = .awaitStop2 := by decide

theorem witness_SymbolOutOfPlace :
    ((decAt .readDevice 0#4 1#6 [⟨450#32, 450#32⟩]).wire = .rx ∧
      (decAt .readDevice 0#4 1#6 [⟨450#32, 450#32⟩]).dec.state.busy = true ∧ Symbol.stop ∉ candidates .readDevice) ∧
    ((decAt .readDevice 0#4 1#6 []).srcQueue = [] ∧ (decAt .readDevice 0#4 1#6 []).srcClosed = false ∧
      (srcClose (decAt .readDevice 0#4 1#6 [])).srcClosed = true) ∧
    State.reset.dec.state.busy = false ∧ { State.reset with wire := .tx }.enc.phase ≠ .pulses := by decide

theorem witness_AwaitSyncStep :
    match25 ⟨562#32, 14850#32⟩ .sync = true ∧ match25 ⟨450#32, 14851#32⟩ .sync = false ∧
    (decAt .awaitSync 0#4 0#6 [⟨562#32, 14850#32⟩]).srcQueue = ⟨562#32, 14850#32⟩ :: [] ∧
    (srcClose (decAt .awaitSync 0#4 0#6 [])).srcQueue = [] ∧ (srcClose (decAt .awaitSync 0#4 0#6 [])).srcClosed = true := by
  decide

theorem witness_BitSteps :
    (true = true ∧ match25 ⟨930#32, 382#32⟩ .bit1 = true) ∧
    (false = false ∧ match25 ⟨587#32, 1625#32⟩ .bit1 = false ∧ match25 ⟨587#32, 1625#32⟩ .bit0 = true) ∧
    (match25 ⟨800#32, 900#32⟩ .bit1 = false ∧ match25 ⟨800#32, 900#32⟩ .bit0 = false) ∧
    (decAt .readDevice 4#4 5#6 [⟨930#32, 382#32⟩]).srcQueue = ⟨930#32, 382#32⟩ :: [] ∧
    (decAt .readDevice 4#4 5#6 []).dec.i.toNat ≤ 4 ∧ (decAt .readGroup 14#4 20#6 []).dec.i.toNat ≤ 14 ∧
    (decAt .readPayload 3#4 24#6 []).dec.i.toNat ≤ 3 := by decide

/-- A legal state before the last device bit, with every bit so far 1. -/
theorem witness_BitSteps_legal :
    State.legal { State.reset with
      dec := { Dec.reset with state := .readDevice, i := 4#4, consumed := 5#6, accDevice := 15#5 } } :=
  ⟨.inl ⟨rfl, rfl, rfl⟩, ⟨by decide, show (5#6).toNat = 1 + (4#4).toNat by decide, by decide, by decide, by decide, rfl⟩⟩

/-- The stop steps: a matching pulse, a pulse that does not match, and a legal state before the last stop. -/
theorem witness_StopSteps :
    match25 ⟨337#32, 562#32⟩ .stop = true ∧ match25 ⟨563#32, 450#32⟩ .stop = false ∧
    (beforeLastStop [⟨337#32, 562#32⟩]).legal ∧ (beforeLastStop [⟨337#32, 562#32⟩]).dec.state = .awaitStop2 ∧
    (beforeLastStop [⟨337#32, 562#32⟩]).dec.i = 0#4 ∧
    nextHas (decStep match25 (beforeLastStop [⟨337#32, 562#32⟩])) (fun t => t.dec.state == .accepted) = true ∧
    nextHas (decStep match25 (beforeLastStop [⟨563#32, 450#32⟩])) (fun t => t.dec.state == .rejected) = true ∧
    nextHas (stepWith match25 { beforeLastStop [⟨337#32, 562#32⟩] with schedule := [.dec] })
      (fun t => t.dec.state == .accepted) = true :=
  ⟨by decide, by decide, beforeLastStop_legal _, rfl, rfl, by decide, by decide, by decide⟩

theorem witness_FrameMismatchEffect :
    ((srcClose (decAt .readGroup 14#4 20#6 [])).dec.state.busy = true ∧
      (srcClose (decAt .readGroup 14#4 20#6 [])).srcQueue = [] ∧
      (srcClose (decAt .readGroup 14#4 20#6 [])).srcClosed = true) ∧
    (∀ y ∈ candidates .readGroup, match25 ⟨800#32, 900#32⟩ y = false) ∧
    (beforeLastStop []).legal :=
  ⟨by decide, by decide, beforeLastStop_legal _⟩

theorem witness_HoldAndExhaustion :
    (decAt .awaitStop2 0#4 26#6 []).dec.state.busy = true ∧ (decAt .awaitStop2 0#4 26#6 []).srcQueue = [] ∧
    (decAt .awaitStop2 0#4 26#6 []).srcClosed = false ∧ (srcClose (decAt .awaitStop2 0#4 26#6 [])).srcClosed = true := by
  decide

theorem witness_ConsumesOnlyOnMatch :
    nextHas (decStep match25 (decAt .awaitSync 0#4 0#6 [⟨450#32, 11880#32⟩])) (fun _ => true) = true := by decide

theorem witness_TerminalStatesPersist :
    State.reset.dec.state.busy = false ∧
    nextHas (stepWith match25 { State.reset with schedule := [.host], hostProg := [cmdLine 0x20000000#32] })
      (fun t => t.dec.state == .awaitSync) = true := by decide

theorem witness_DecoderComputesDecodeFunction :
    ∃ s : State, s.dec.state.busy = false ∧ s.srcClosed = true ∧
      s.hostProg = .write (.off 0x00) 4 0x20000000#32 :: [] ∧
      s.schedule = .host :: (List.replicate 27 .dec ++ []) ∧ (decodeFn match25 s.srcQueue).1 = some 0x280643#24 :=
  ⟨{ State.reset with
      srcClosed := true
      srcQueue := (frame 0x280643#24).map Symbol.nominalPulse
      hostProg := [.write (.off 0x00) 4 0x20000000#32]
      schedule := .host :: (List.replicate 27 .dec ++ []) }, rfl, rfl, rfl, rfl, by decide⟩

theorem witness_DecoderComputesDecodeFunction_rejects : (decodeFn match25 []).1 = none := by decide

theorem witness_RejectionPosition :
    decodeFn match25 [] = (none, 0) ∧
    decodeFn match25 (((frame 0x280643#24).take 26).map Symbol.nominalPulse ++ [⟨900#32, 450#32⟩]) = (none, 26) := by
  decide

/-- A matcher with P1 and P2. -/
theorem witness_RoundTrip : NominalAcceptance match25 ∧ BitDiscrimination match25 :=
  ⟨fun y => by cases y <;> decide, by unfold BitDiscrimination; decide⟩

theorem witness_MatcherIsAnyWithRequiredProperties : NominalAcceptance match25 ∧ BitDiscrimination match25 :=
  witness_RoundTrip

theorem witness_StickyFlags :
    nextHas (stepWith match25 { State.reset with schedule := [.host], hostProg := [cmdLine 0xF0000000#32] })
      (fun t => t.err.ill) = true := by decide

theorem witness_UnitsCommute : (pulsesAt 26#6).legal := pulsesAt_legal

theorem witness_UnitsIsolated :
    nextHas (encStep true (pulsesAt 26#6)) (fun _ => true) = true ∧
    nextHas (decStep match25 (decAt .awaitSync 0#4 0#6 [⟨450#32, 11880#32⟩])) (fun _ => true) = true ∧
    { State.reset with enc := (pulsesAt 26#6).enc, srcClosed := true }.enc = (pulsesAt 26#6).enc ∧
    srcHead { decAt .awaitSync 0#4 0#6 [⟨450#32, 11880#32⟩] with tick := 7 } =
      srcHead (decAt .awaitSync 0#4 0#6 [⟨450#32, 11880#32⟩]) := by decide

/-- A legal state from which a step answers a next state, under every matcher and under the machine's own. -/
theorem witness_StepKeepsLegal :
    { pulsesAt 26#6 with schedule := [.enc true] }.legal ∧
    nextHas (stepWith match25 { pulsesAt 26#6 with schedule := [.enc true] }) (fun t => t.enc.done) = true ∧
    nextHas (step { pulsesAt 26#6 with schedule := [.enc true] }) (fun t => t.enc.done) = true :=
  ⟨pulsesAt_legal, by decide, by decide⟩

theorem witness_LegalNeverFaults : { pulsesAt 26#6 with schedule := [.enc true] }.legal := pulsesAt_legal

/-- ENC about to send its first pulse unit, with the carrier declaration in the trace. -/
theorem witness_TraceEndsWithFrameSoFar :
    { pulsesAt 0#6 with schedule := [.enc true], sinkTrace := [.carrier 0#32] }.legal ∧
    (pulsesAt 0#6).enc.emitted <:+ { pulsesAt 0#6 with sinkTrace := [.carrier 0#32] }.sinkTrace ∧
    nextHas (stepWith match25 { pulsesAt 0#6 with schedule := [.enc true], sinkTrace := [.carrier 0#32] })
      (fun t => t.enc.k == 1#6) = true :=
  ⟨⟨⟨by decide, rfl, rfl⟩, ⟨by decide, rfl, by decide, by decide, by decide, rfl⟩⟩, ⟨[], by decide⟩, by decide⟩

theorem witness_InterfacesAreFifo :
    nextHas (stepWith match25 { State.reset with schedule := [.srcAppend ⟨1#32, 2#32⟩] })
      (fun t => t.srcQueue == [⟨1#32, 2#32⟩]) = true ∧
    nextHas (stepWith match25 { State.reset with schedule := [.srcAppend ⟨1#32, 2#32⟩], srcClosed := true })
      (fun t => t.srcQueue.isEmpty) = true := by decide

theorem witness_AccumulatorsHidden : (beforeLastStop []).legal ∧ (beforeLastStop []).dec.state ≠ .accepted :=
  ⟨beforeLastStop_legal _, by decide⟩

/-- A legal accepted state and a legal rejected state, both with `DONE` set. -/
theorem witness_DecodeResultRead :
    { State.reset with dec := { state := .accepted, i := 0#4, accDevice := 5#5, accGroup := 100#15, accPayload := 3#4,
                                consumed := 27#6, msg := 0x280643#24 } }.legal ∧
    (regValue { State.reset with dec := { Dec.reset with state := .accepted, consumed := 27#6 } } 0x0C).getLsbD 17 = true ∧
    { State.reset with dec := { Dec.reset with state := .rejected } }.legal ∧
    (regValue { State.reset with dec := { Dec.reset with state := .rejected } } 0x0C).getLsbD 17 = true :=
  ⟨⟨.inl ⟨rfl, rfl, rfl⟩, ⟨by decide, rfl, by decide, by decide, by decide, by decide⟩⟩, by decide,
   ⟨.inl ⟨rfl, rfl, rfl⟩, ⟨by decide, show (0#6).toNat ≤ 26 by decide, by decide, by decide, by decide, rfl⟩⟩, by decide⟩

/-- A run that is over with lines left that are no commands, one that a command keeps open, at both ways to name `CMD`,
and the host's next line there. -/
theorem witness_EndOfRun :
    State.runOver { State.reset with hostProg := [.write (.off 0x04) 4 7#32, .poll 0x04 1#32 1#32, .read (.off 0x10) 4] }
      = true ∧
    State.runOver { State.reset with hostProg := [.read (.off 0x10) 4, cmdLine 0#32] } = false ∧
    nextHas (hostStep { State.reset with hostProg := [.write (.off 0x04) 4 7#32, .read (.off 0x10) 4] })
      (fun t => t.runOver) = true := by decide

/-- A command at the platform address of `CMD` keeps a run open, whatever `REG_BASE` is. -/
theorem test_runOver_platform_address (v : Word) :
    State.runOver { State.reset with hostProg := [.write (.addr Config.regBase) 4 v] } = false := by
  simp [State.runOver, HostLine.isCommand, Place.inWindow, Place.offset, Config.windowBytes]

theorem witness_IllegalPositionsFault :
    { pulsesAt 27#6 with wire := .tx }.wire = .tx ∧ (pulsesAt 27#6).enc.phase = .pulses ∧
    27 ≤ (pulsesAt 27#6).enc.k.toNat ∧ (decAt .readPayload 4#4 25#6 [⟨470#32, 1300#32⟩]).wire = .rx ∧
    Symbol.bit0 ∈ candidates (decAt .readPayload 4#4 25#6 []).dec.state ∧
    (decAt .readPayload 4#4 25#6 []).dec.state.lastIndex < (decAt .readPayload 4#4 25#6 []).dec.i.toNat := by decide

end Sys2Proof.Tests
end

section
/-! PROOFS. The state of the block: what one step can do to it, said once, and the invariants that follow. -/

namespace Sys2Proof.Machine

/-! ### What a step can do -/

/-- Two states agree on the block and on the two interfaces; the host's side and the schedule may differ. -/
structure SameBlock (s t : State) : Prop where
  enc : t.enc = s.enc
  dec : t.dec = s.dec
  err : t.err = s.err
  sinkTrace : t.sinkTrace = s.sinkTrace
  srcQueue : t.srcQueue = s.srcQueue
  srcClosed : t.srcClosed = s.srcClosed

/-- What the write of the command word `w` can do, with what the word then is (R170 to R174). -/
inductive CommandEffect (w : Word) (s : State) : State → Prop where
  | nop (hw : w = 0x00000000#32) : CommandEffect w s s
  | reserved {e : DecodeReject} (hw : decodeCommand w = .error e) : CommandEffect w s (raiseIll s)
  | encode {d : BitVec 5} {g : BitVec 15} {p : BitVec 4} (hw : decodeCommand w = .ok (.encode d g p))
      (hp : s.enc.phase = .idle) : CommandEffect w s (startEncode s (packMsg d g p))
  | encodeDropped (hw : w.extractLsb' 24 8 = 0x10#8) (hp : s.enc.phase ≠ .idle) : CommandEffect w s (raiseEncDrop s)
  | decode (hw : w = 0x20000000#32) (hb : s.dec.state.busy = false) : CommandEffect w s (startDecode s)
  | decodeDropped (hw : w = 0x20000000#32) (hb : s.dec.state.busy = true) : CommandEffect w s (raiseDecDrop s)
  | clrerr (hw : w = 0x30000000#32) : CommandEffect w s (clearErr s)

/-- A word is fixed by its three command fields (R81). -/
theorem word_toNat_fields (w : Word) :
    w.toNat = (opField w).toNat * 2 ^ 28 + (rsvField w).toNat * 2 ^ 24 + (argField w).toNat := by
  have := w.isLt
  rw [opField_toNat, rsvField_toNat, argField_toNat]
  omega

theorem plainCommand_ok {w : Word} {i j : Instr} (h : plainCommand w i = .ok j) : argField w = 0#24 ∧ j = i := by
  unfold plainCommand at h
  split at h
  · exact ⟨‹_›, (Except.ok.inj h).symm⟩
  · cases h

/-- The fields of a command word that decodes (R82, R83). -/
theorem decodeCommand_ok_fields {w : Word} {i : Instr} (h : decodeCommand w = .ok i) :
    rsvField w = 0#4 ∧
    ((opField w = 0#4 ∧ argField w = 0#24 ∧ i = .nop) ∨
     (opField w = 1#4 ∧ ∃ d g p, i = .encode d g p) ∨
     (opField w = 2#4 ∧ argField w = 0#24 ∧ i = .decode) ∨
     (opField w = 3#4 ∧ argField w = 0#24 ∧ i = .clrerr)) := by
  unfold decodeCommand at h
  split at h
  · cases h
  next hr =>
  refine ⟨not_not.mp hr, ?_⟩
  split at h
  next ho => exact .inl ⟨ho, plainCommand_ok h⟩
  split at h
  next ho => exact .inr (.inl ⟨ho, _, _, _, (Except.ok.inj h).symm⟩)
  split at h
  next ho => exact .inr (.inr (.inl ⟨ho, plainCommand_ok h⟩))
  split at h
  next ho => exact .inr (.inr (.inr ⟨ho, plainCommand_ok h⟩))
  cases h

theorem exec_encode (d : BitVec 5) (g : BitVec 15) (p : BitVec 4) (s : State) :
    exec (.encode d g p) s = execEncode d g p s := rfl

theorem exec_decode (s : State) : exec .decode s = execDecode s := rfl

/-- What a command word does, with the word or its reading. -/
theorem performCommand_effect {w : Word} {s t : State} (h : performCommand w s = .next t) : CommandEffect w s t := by
  rcases performCommand_cases w s with ⟨e, hw, hx⟩ | ⟨i, hw, hx⟩ <;> rw [hx] at h
  · cases h
    exact .reserved hw
  have hword := word_toNat_fields w
  obtain ⟨hr, ⟨ho, ha, rfl⟩ | ⟨ho, d, g, p, rfl⟩ | ⟨ho, ha, rfl⟩ | ⟨ho, ha, rfl⟩⟩ := decodeCommand_ok_fields hw
  · cases h
    exact .nop (BitVec.eq_of_toNat_eq (by rw [hword, ho, hr, ha]; rfl))
  · rw [exec_encode, execEncode] at h
    split at h <;> cases h
    next hp =>
      refine .encodeDropped (BitVec.eq_of_toNat_eq ?_) hp
      have := (argField w).isLt
      rw [extract_toNat_div, hword, ho, hr]
      change (1 * 2 ^ 28 + 0 * 2 ^ 24 + _) / 2 ^ 24 % 2 ^ 8 = 16
      omega
    next hp => exact .encode hw (not_not.mp hp)
  · rw [exec_decode, execDecode] at h
    have hw' : w = 0x20000000#32 := BitVec.eq_of_toNat_eq (by rw [hword, ho, hr, ha]; rfl)
    split at h <;> cases h
    next hb => exact .decodeDropped hw' hb
    next hb => exact .decode hw' (by simpa using hb)
  · cases h
    exact .clrerr (BitVec.eq_of_toNat_eq (by rw [hword, ho, hr, ha]; rfl))

/-- The host's turn leaves the block alone, or writes a command word to `CMD` (R174 to R177). -/
theorem hostStep_effect {s t : State} (h : hostStep s = .next t) :
    SameBlock s t ∨ ∃ place w rest, s.hostProg = .write place 4 w :: rest ∧ place.offset = 0 ∧
      CommandEffect w (setHostProg s rest) t := by
  obtain ⟨-, rfl⟩ | ⟨place, w, rest, hp, -, ⟨h0, hc⟩ | ⟨-, rfl⟩⟩ | ⟨place, rest, -, -, rfl⟩ |
    ⟨off, mask, v, rest, -, -, rfl⟩ := hostStep_next h
  · exact .inl ⟨rfl, rfl, rfl, rfl, rfl, rfl⟩
  · exact .inr ⟨place, w, rest, hp, h0, performCommand_effect hc⟩
  · exact .inl ⟨rfl, rfl, rfl, rfl, rfl, rfl⟩
  · exact .inl ⟨rfl, rfl, rfl, rfl, rfl, rfl⟩
  · split <;> exact .inl ⟨rfl, rfl, rfl, rfl, rfl, rfl⟩

/-- A step is the turn chosen, taken in a state with the same block and the same host program. -/
theorem stepWith_next {M : Matcher} {s t : State} (h : stepWith M s = .next t) :
    ∃ u, SameBlock s u ∧ u.hostProg = s.hostProg ∧ takeTurn M (nextTurn s).1 u = .next t := by
  obtain ⟨henc, hdec, herr, htrace, hqueue, hclosed, hprog, -, -⟩ := nextTurn_frame s
  exact ⟨_, ⟨henc, hdec, herr, htrace, hqueue, hclosed⟩, hprog, h⟩

/-- Commands leave the two interfaces alone. -/
theorem CommandEffect.interfaces {w : Word} {s t : State} (h : CommandEffect w s t) :
    t.sinkTrace = s.sinkTrace ∧ t.srcQueue = s.srcQueue ∧ t.srcClosed = s.srcClosed := by
  cases h <;> exact ⟨rfl, rfl, rfl⟩

theorem hostStep_interfaces {s t : State} (h : hostStep s = .next t) :
    t.sinkTrace = s.sinkTrace ∧ t.srcQueue = s.srcQueue ∧ t.srcClosed = s.srcClosed := by
  obtain hsame | ⟨place, w, rest, -, -, hc⟩ := hostStep_effect h
  · exact ⟨hsame.sinkTrace, hsame.srcQueue, hsame.srcClosed⟩
  · exact hc.interfaces

/-- ENC's turn leaves the decoder, the flags and the source alone (R130). -/
theorem encStep_frame {a : Bool} {s t : State} (h : encStep a s = .next t) :
    t.dec = s.dec ∧ t.err = s.err ∧ t.srcQueue = s.srcQueue ∧ t.srcClosed = s.srcClosed := by
  obtain rfl | ⟨-, -, rfl⟩ | ⟨-, -, -, y, -, rfl⟩ := encStep_next h <;> exact ⟨rfl, rfl, rfl, rfl⟩

/-- DEC's turn leaves the encoder, the flags, the sink and the source's end alone (R157). -/
theorem decStep_frame {M : Matcher} {s t : State} (h : decStep M s = .next t) :
    t.enc = s.enc ∧ t.err = s.err ∧ t.sinkTrace = s.sinkTrace ∧ t.srcClosed = s.srcClosed := by
  obtain rfl | ⟨-, rfl⟩ | ⟨-, -, p, q, y, -, -, rfl⟩ := decStep_next h <;> exact ⟨rfl, rfl, rfl, rfl⟩

/-! ### Legal states -/

theorem Enc.reset_legal : Enc.reset.legal := .inl ⟨rfl, rfl, rfl⟩

/-- The decoder at the start of a decode, and at reset, has received and consumed nothing. -/
theorem Dec.reset_legal : Dec.reset.legal := ⟨by decide, rfl, by decide, by decide, by decide, rfl⟩

theorem Dec.awaitSync_legal : { Dec.reset with state := .awaitSync }.legal :=
  ⟨by decide, rfl, by decide, by decide, by decide, rfl⟩

theorem Enc.legal_k_le {e : Enc} (h : e.legal) (hp : e.phase = .pulses) : e.k.toNat ≤ 26 := by
  simp only [Enc.legal, hp] at h
  exact h.1

theorem Enc.advance_phase (e : Enc) : e.advance.phase = if e.k + 1#6 = 27#6 then .idle else e.phase := by
  unfold Enc.advance
  split <;> rfl

theorem Enc.advance_done (e : Enc) : e.advance.done = if e.k + 1#6 = 27#6 then true else e.done := by
  unfold Enc.advance
  split <;> rfl

/-- The pulse step keeps the encoder legal: at 26 it ends the frame, below 26 it stays in the frame (R125). -/
theorem Enc.advance_legal {e : Enc} (h : e.legal) (hp : e.phase = .pulses) : e.advance.legal := by
  simp only [Enc.legal, hp] at h
  obtain ⟨hk, hc, hd⟩ := h
  by_cases hlast : e.k + 1#6 = 27#6
  · simp [Enc.legal, Enc.advance_phase, Enc.advance_done, hlast, hc]
  · have hk' : (e.k + 1#6).toNat ≤ 26 := by bv_omega
    simpa [Enc.legal, Enc.advance_phase, Enc.advance_done, hlast, hp, hc, hd] using hk'

theorem encStep_keeps_legal {a : Bool} {s t : State} (hs : s.enc.legal) (h : encStep a s = .next t) : t.enc.legal := by
  obtain rfl | ⟨-, hp, rfl⟩ | ⟨-, hp, -, y, -, rfl⟩ := encStep_next h
  · exact hs
  · simp only [Enc.legal, hp] at hs
    obtain ⟨hk, -, hd⟩ := hs
    simp [Enc.legal, hk, hd]
  · exact Enc.advance_legal hs hp

/-- A bit shifted in makes an accumulator one bit wider (R146 to R148). -/
theorem shiftIn_toNat_lt {w n : Nat} {acc : BitVec w} (b : Bool) (h : acc.toNat < 2 ^ n) :
    (shiftIn acc b).toNat < 2 ^ (n + 1) := by
  have hb : b.toNat < 2 ^ (n + 1) := lt_of_lt_of_le (Bool.toNat_lt b) (Nat.le_self_pow n.succ_ne_zero 2)
  have hacc : acc.toNat <<< 1 < 2 ^ (n + 1) := by rw [Nat.shiftLeft_eq, Nat.pow_succ]; omega
  rw [shiftIn, BitVec.toNat_or, BitVec.toNat_shiftLeft, BitVec.toNat_setWidth, BitVec.toNat_ofBool]
  exact Nat.or_lt_two_pow (lt_of_le_of_lt (Nat.mod_le _ _) hacc) (lt_of_le_of_lt (Nat.mod_le _ _) hb)

/-- Counting a pulse, in the range the frame allows, does not wrap. -/
theorem toNat_add_one_of_le {c : BitVec 6} (h : c.toNat ≤ 26) : (c + 1#6).toNat = c.toNat + 1 := by
  bv_omega

/-- Below the field's last index, the next index is in the field too. -/
theorem index_add_one {i : BitVec 4} {n : Nat} (hi : i.toNat ≤ n) (hn : n ≤ 14) (hlast : i ≠ BitVec.ofNat 4 n) :
    (i + 1#4).toNat = i.toNat + 1 ∧ i.toNat + 1 ≤ n := by
  have hne : i.toNat ≠ n := fun h => hlast (by rw [← h, BitVec.ofNat_toNat, BitVec.setWidth_eq])
  rw [BitVec.toNat_add, show (1#4).toNat = 1 from rfl, Nat.mod_eq_of_lt (by omega)]
  omega

theorem Dec.deviceBit_legal {d : Dec} (h : d.legal) (hs : d.state = .readDevice) (b : Bool) :
    ({ d with consumed := d.consumed + 1#6 }.deviceBit b).legal := by
  simp only [Dec.legal, Dec.countLegal, Dec.received, hs, DecState.lastIndex, reduceCtorEq, if_false] at h
  obtain ⟨hi, hc, hdev, hgrp, hpay, hmsg⟩ := h
  have hc' := toNat_add_one_of_le (c := d.consumed) (by omega)
  have hdev' := shiftIn_toNat_lt b hdev
  by_cases hlast : d.i = 4#4
  · rw [hlast] at hc hdev'
    rw [Dec.deviceBit, if_pos hlast]
    exact ⟨Nat.zero_le _, hc'.trans (by rw [hc]; rfl), hdev', hgrp, hpay, hmsg⟩
  · obtain ⟨hi', hle⟩ := index_add_one hi (by omega) hlast
    rw [← hi'] at hdev' hle
    rw [Dec.deviceBit, if_neg hlast]
    simp only [Dec.legal, Dec.countLegal, Dec.received, hs, DecState.lastIndex, reduceCtorEq, if_false]
    exact ⟨hle, by omega, hdev', hgrp, hpay, hmsg⟩

theorem Dec.groupBit_legal {d : Dec} (h : d.legal) (hs : d.state = .readGroup) (b : Bool) :
    ({ d with consumed := d.consumed + 1#6 }.groupBit b).legal := by
  simp only [Dec.legal, Dec.countLegal, Dec.received, hs, DecState.lastIndex, reduceCtorEq, if_false] at h
  obtain ⟨hi, hc, hdev, hgrp, hpay, hmsg⟩ := h
  have hc' := toNat_add_one_of_le (c := d.consumed) (by omega)
  have hgrp' := shiftIn_toNat_lt b hgrp
  by_cases hlast : d.i = 14#4
  · rw [hlast] at hc hgrp'
    rw [Dec.groupBit, if_pos hlast]
    exact ⟨Nat.zero_le _, hc'.trans (by rw [hc]; rfl), hdev, hgrp', hpay, hmsg⟩
  · obtain ⟨hi', hle⟩ := index_add_one hi (by omega) hlast
    rw [← hi'] at hgrp' hle
    rw [Dec.groupBit, if_neg hlast]
    simp only [Dec.legal, Dec.countLegal, Dec.received, hs, DecState.lastIndex, reduceCtorEq, if_false]
    exact ⟨hle, by omega, hdev, hgrp', hpay, hmsg⟩

theorem Dec.payloadBit_legal {d : Dec} (h : d.legal) (hs : d.state = .readPayload) (b : Bool) :
    ({ d with consumed := d.consumed + 1#6 }.payloadBit b).legal := by
  simp only [Dec.legal, Dec.countLegal, Dec.received, hs, DecState.lastIndex, reduceCtorEq, if_false] at h
  obtain ⟨hi, hc, hdev, hgrp, hpay, hmsg⟩ := h
  have hc' := toNat_add_one_of_le (c := d.consumed) (by omega)
  have hpay' := shiftIn_toNat_lt b hpay
  by_cases hlast : d.i = 3#4
  · rw [hlast] at hc hpay'
    rw [Dec.payloadBit, if_pos hlast]
    exact ⟨Nat.zero_le _, BitVec.eq_of_toNat_eq (hc'.trans (by rw [hc]; rfl)), hdev, hgrp, hpay', hmsg⟩
  · obtain ⟨hi', hle⟩ := index_add_one hi (by omega) hlast
    rw [← hi'] at hpay' hle
    rw [Dec.payloadBit, if_neg hlast]
    simp only [Dec.legal, Dec.countLegal, Dec.received, hs, DecState.lastIndex, reduceCtorEq, if_false]
    exact ⟨hle, by omega, hdev, hgrp, hpay', hmsg⟩

/-- Taking a symbol, with its pulse counted, keeps the decoder legal in every busy state (R145 to R150). -/
theorem Dec.advance_legal {d : Dec} (h : d.legal) (hb : d.state.busy = true) (y : Symbol) :
    ({ d with consumed := d.consumed + 1#6 }.advance y).legal := by
  have hlegal := h
  obtain ⟨st, i, dev, grp, pay, count, msg⟩ := d
  obtain ⟨hi, hc, hdev, hgrp, hpay, hmsg⟩ := h
  cases st with
  | awaitSync => exact ⟨Nat.zero_le _, congrArg (fun c => (c + 1#6).toNat) hc, hdev, hgrp, hpay, hmsg⟩
  | readDevice => exact Dec.deviceBit_legal hlegal rfl y.bit
  | readGroup => exact Dec.groupBit_legal hlegal rfl y.bit
  | readPayload => exact Dec.payloadBit_legal hlegal rfl y.bit
  | awaitStop1 => exact ⟨hi, congrArg (· + 1#6) hc, hdev, hgrp, hpay, hmsg⟩
  | awaitStop2 => exact ⟨hi, congrArg (· + 1#6) hc, hdev, hgrp, hpay, rfl⟩
  | idle | accepted | rejected => cases hb

theorem Dec.consumed_le_of_busy {d : Dec} (h : d.legal) (hb : d.state.busy = true) : d.consumed.toNat ≤ 26 := by
  obtain ⟨hi, hc, -⟩ := h
  cases hs : d.state <;> simp only [Dec.countLegal, hs, DecState.lastIndex, DecState.busy, reduceCtorEq] at hi hc hb
  case readDevice | readGroup | readPayload => omega
  case awaitSync | awaitStop1 | awaitStop2 => rw [hc]; decide

theorem Dec.msg_eq_zero {d : Dec} (h : d.legal) (hs : d.state ≠ .accepted) : d.msg = 0#24 := by
  obtain ⟨-, -, -, -, -, hmsg⟩ := h
  rwa [if_neg hs] at hmsg

/-- FrameMismatch keeps the decoder legal: the count stays below 27, and no message is shown (R190). -/
theorem frameMismatch_legal {s : State} (h : s.dec.legal) (hb : s.dec.state.busy = true) :
    (frameMismatch s).dec.legal := by
  have hmsg := Dec.msg_eq_zero h (fun hs => by simp [hs, DecState.busy] at hb)
  exact ⟨Nat.le_refl 0, Dec.consumed_le_of_busy (d := s.dec) h hb, s.dec.accDevice.isLt, s.dec.accGroup.isLt,
    s.dec.accPayload.isLt, hmsg⟩

theorem decStep_keeps_legal {M : Matcher} {s t : State} (hs : s.dec.legal) (h : decStep M s = .next t) :
    t.dec.legal := by
  obtain rfl | ⟨hb, rfl⟩ | ⟨hb, -, p, q, y, -, -, rfl⟩ := decStep_next h
  · exact hs
  · exact frameMismatch_legal hs hb
  · exact Dec.advance_legal hs hb y

theorem CommandEffect.keeps_legal {w : Word} {s t : State} (hs : s.legal) (h : CommandEffect w s t) : t.legal := by
  obtain ⟨henc, hdec⟩ := hs
  cases h with
  | encode hw hp => exact ⟨⟨rfl, rfl, rfl⟩, hdec⟩
  | decode hw hb => exact ⟨henc, Dec.awaitSync_legal⟩
  | nop hw | reserved hw | encodeDropped hw hp | decodeDropped hw hb | clrerr hw => exact ⟨henc, hdec⟩

theorem SameBlock.legal {s t : State} (h : SameBlock s t) (hs : s.legal) : t.legal := by
  rwa [State.legal, h.enc, h.dec]

theorem hostStep_keeps_legal {s t : State} (hs : s.legal) (h : hostStep s = .next t) : t.legal := by
  obtain hsame | ⟨place, w, rest, -, -, hc⟩ := hostStep_effect h
  · exact hsame.legal hs
  · exact hc.keeps_legal (s := setHostProg s rest) hs

/-- Every turn keeps the state legal, turn by turn. -/
theorem takeTurn_keeps_legal {M : Matcher} {r : Turn} {s t : State} (hs : s.legal) (h : takeTurn M r s = .next t) :
    t.legal := by
  cases r with
  | host => exact hostStep_keeps_legal hs h
  | enc a =>
    obtain ⟨hdec, -⟩ := encStep_frame h
    exact ⟨encStep_keeps_legal hs.1 h, hdec ▸ hs.2⟩
  | dec =>
    obtain ⟨henc, -⟩ := decStep_frame h
    exact ⟨henc ▸ hs.1, decStep_keeps_legal hs.2 h⟩
  | srcAppend p => cases h; exact hs
  | srcClose => cases h; exact hs
  | reset => cases h; exact ⟨Enc.reset_legal, Dec.reset_legal⟩

theorem stepWith_keeps_legal {M : Matcher} {s t : State} (hs : s.legal) (h : stepWith M s = .next t) : t.legal := by
  obtain ⟨u, hsame, -, hu⟩ := stepWith_next h
  exact takeTurn_keeps_legal (hsame.legal hs) hu

/-- Settles O51: legality is kept turn by turn, by ENC's and DEC's moves each for its own unit. -/
theorem stepKeepsLegal : Obligations.StepKeepsLegal := by
  unfold Obligations.StepKeepsLegal
  exact ⟨fun _ _ _ => stepWith_keeps_legal, fun _ _ => stepWith_keeps_legal⟩

/-! ### The sink's trace -/

theorem frameEvents_length (m : MsgWord) : (frameEvents m).length = 28 := by simp [frameEvents]

theorem frameEvents_getElem? {m : MsgWord} {k : Nat} {y : Symbol} (h : symbolAt m k = some y) :
    (frameEvents m)[k + 1]? = some y.event := by
  simp [frameEvents, frame_getElem?, h]

/-- The pulse step adds exactly the symbol at `enc_k` to the frame so far. -/
theorem Enc.emitted_advance {e : Enc} {y : Symbol} (hp : e.phase = .pulses) (hk : e.k.toNat ≤ 26)
    (hy : symbolAt e.msg e.k.toNat = some y) : e.advance.emitted = e.emitted ++ [y.event] := by
  have hnext : (e.k + 1#6).toNat = e.k.toNat + 1 := toNat_add_one_of_le hk
  have hev : (frameEvents e.msg).take (e.k.toNat + 2) = e.emitted ++ [y.event] := by
    simp [Enc.emitted, hp, List.take_add_one, frameEvents_getElem? hy]
  rw [← hev]
  by_cases hlast : e.k + 1#6 = 27#6
  · have h26 : e.k.toNat = 26 := by rw [hlast] at hnext; simpa using hnext.symm
    simp [Enc.emitted, Enc.advance_phase, Enc.advance_done, hlast, h26, List.take_of_length_le, frameEvents_length]
  · simp [Enc.emitted, Enc.advance_phase, hlast, hp, hnext]

/-- The trace ends with the events of the current or last frame accepted so far. -/
def State.traceEndsWithFrame (s : State) : Prop := s.enc.emitted <:+ s.sinkTrace

theorem traceEndsWithFrame_of_emitted_nil {s : State} (h : s.enc.emitted = []) : s.traceEndsWithFrame := by
  rw [State.traceEndsWithFrame, h]
  exact List.nil_suffix

theorem traceEndsWithFrame_congr {s t : State} (henc : t.enc = s.enc) (htrace : t.sinkTrace = s.sinkTrace)
    (hs : s.traceEndsWithFrame) : t.traceEndsWithFrame := by
  rwa [State.traceEndsWithFrame, henc, htrace]

theorem encStep_keeps_trace {a : Bool} {s t : State} (hl : s.enc.legal) (hs : s.traceEndsWithFrame)
    (h : encStep a s = .next t) : t.traceEndsWithFrame := by
  obtain rfl | ⟨-, hp, rfl⟩ | ⟨-, hp, hk, y, hy, rfl⟩ := encStep_next h
  · exact hs
  · simp only [Enc.legal, hp] at hl
    obtain ⟨hk, -, -⟩ := hl
    have hone : (emitCarrier s).enc.emitted = [.carrier Config.carrierHz] := by simp [Enc.emitted, hk, frameEvents]
    rw [State.traceEndsWithFrame, hone]
    exact List.suffix_append _ _
  · rw [State.traceEndsWithFrame, setEnc_enc, setEnc_sinkTrace, sinkPut_sinkTrace, Enc.emitted_advance hp hk hy]
    obtain ⟨l, hl⟩ := hs
    exact ⟨l, by rw [← List.append_assoc, hl]⟩

theorem CommandEffect.keeps_trace {w : Word} {s t : State} (hs : s.traceEndsWithFrame) (h : CommandEffect w s t) :
    t.traceEndsWithFrame := by
  cases h with
  | encode hw hp => exact traceEndsWithFrame_of_emitted_nil rfl
  | nop hw | reserved hw | encodeDropped hw hp | decode hw hb | decodeDropped hw hb | clrerr hw =>
    exact traceEndsWithFrame_congr rfl rfl hs

theorem takeTurn_keeps_trace {M : Matcher} {r : Turn} {s t : State} (hl : s.enc.legal) (hs : s.traceEndsWithFrame)
    (h : takeTurn M r s = .next t) : t.traceEndsWithFrame := by
  cases r with
  | host =>
    obtain hsame | ⟨place, w, rest, -, -, hc⟩ := hostStep_effect h
    · exact traceEndsWithFrame_congr hsame.enc hsame.sinkTrace hs
    · exact hc.keeps_trace (s := setHostProg s rest) hs
  | enc a => exact encStep_keeps_trace hl hs h
  | dec =>
    obtain ⟨henc, -, htrace, -⟩ := decStep_frame h
    exact traceEndsWithFrame_congr henc htrace hs
  | srcAppend p => cases h; exact hs
  | srcClose => cases h; exact hs
  | reset => cases h; exact traceEndsWithFrame_of_emitted_nil rfl

/-- Settles O54: ENC's moves append what they emit, an ENCODE or a reset begins an empty frame, and no other turn
touches either side. -/
theorem traceEndsWithFrameSoFar : Obligations.TraceEndsWithFrameSoFar := by
  unfold Obligations.TraceEndsWithFrameSoFar
  intro M s t hl hs h
  obtain ⟨u, hsame, -, hu⟩ := stepWith_next h
  exact takeTurn_keeps_trace (hsame.legal hl).1 (traceEndsWithFrame_congr hsame.enc hsame.sinkTrace hs) hu

/-! ### Safety -/

theorem guardAccess_ne_fault {place : Place} {width : Nat} {r : Result} {f : Fault} (hr : r ≠ .fault f) :
    guardAccess place width r ≠ .fault f := by
  unfold guardAccess
  split
  · split
    · exact hr
    · simp
  · simp

/-- A write always answers a next state: a command does, and the other offsets ignore it. -/
theorem regWrite_ne_fault (off : Nat) (v : Word) (s : State) (f : Fault) : regWrite off v s ≠ .fault f := by
  unfold regWrite
  split
  · obtain ⟨t, ht, -⟩ := performCommand_next v s
    simp [ht]
  · simp

/-- The host's turn may be refused, but it ends in no fault. -/
theorem hostStep_ne_fault (s : State) (f : Fault) : hostStep s ≠ .fault f := by
  unfold hostStep
  split
  · simp
  · exact guardAccess_ne_fault (regWrite_ne_fault _ _ _ f)
  · exact guardAccess_ne_fault (by simp)
  · exact guardAccess_ne_fault (by simp)

theorem encStep_ne_fault {a : Bool} {s : State} (hs : s.enc.legal) (f : Fault) : encStep a s ≠ .fault f := by
  unfold encStep
  split
  · split
    · simp
    · simp
    · next hp =>
      have hk := Enc.legal_k_le hs hp
      obtain ⟨y, hy⟩ := (symbolAt_isSome (m := s.enc.msg)).mpr hk
      rw [hy]
      simp [execOnWire_tx hp hk]
  · simp

theorem decStep_ne_fault {M : Matcher} {s : State} (hs : s.dec.legal) (f : Fault) : decStep M s ≠ .fault f := by
  have hi : s.dec.i.toNat ≤ s.dec.state.lastIndex := hs.1
  rw [decStep_eq]
  split
  · split
    · simp
    · simp
    · split
      · simp [takeSymbol, hi]
      · simp
  · simp

/-- Settles O53: in a legal state ENC's index has a symbol and DEC's index is in its field; no other turn can fault. -/
theorem legalNeverFaults : Obligations.LegalNeverFaults := by
  unfold Obligations.LegalNeverFaults
  intro M s f hs
  obtain ⟨henc, hdec, -⟩ := nextTurn_frame s
  unfold stepWith
  cases (nextTurn s).1 with
  | host => exact hostStep_ne_fault _ f
  | enc a => exact encStep_ne_fault (henc ▸ hs.1) f
  | dec => exact decStep_ne_fault (hdec ▸ hs.2) f
  | srcAppend p => simp [takeTurn]
  | srcClose => simp [takeTurn]
  | reset => simp [takeTurn]

/-- Settles O52: at reset both units are at their first position and no event has been emitted. -/
theorem resetIsLegal : Obligations.ResetIsLegal := by
  unfold Obligations.ResetIsLegal
  exact ⟨⟨Enc.reset_legal, Dec.reset_legal⟩, traceEndsWithFrame_of_emitted_nil rfl⟩

/-! ### The sticky flags -/

/-- Over the write of a command word the flags stay, or the word is the one that changes them (R33, R192, R196). -/
theorem CommandEffect.err {w : Word} {s t : State} (h : CommandEffect w s t) :
    t.err = s.err ∨ (w = 0x30000000#32 ∧ t.err = Err.reset) ∨
    ((∃ e, decodeCommand w = .error e) ∧ t.err = { s.err with ill := true }) ∨
    (w.extractLsb' 24 8 = 0x10#8 ∧ s.enc.phase ≠ .idle ∧ t.err = { s.err with encDrop := true }) ∨
    (w = 0x20000000#32 ∧ s.dec.state.busy = true ∧ t.err = { s.err with decDrop := true }) := by
  cases h with
  | nop | encode | decode => exact .inl rfl
  | clrerr hw => exact .inr (.inl ⟨hw, rfl⟩)
  | reserved hw => exact .inr (.inr (.inl ⟨⟨_, hw⟩, rfl⟩))
  | encodeDropped hw hp => exact .inr (.inr (.inr (.inl ⟨hw, hp, rfl⟩)))
  | decodeDropped hw hb => exact .inr (.inr (.inr (.inr ⟨hw, hb, rfl⟩)))

/-- Settles O47: only a command word written by the host and the reset touch the flags. -/
theorem stickyFlags : Obligations.StickyFlags := by
  unfold Obligations.StickyFlags
  refine ⟨rfl, fun M s t h => ?_⟩
  obtain ⟨u, hsame, hprog, hu⟩ := stepWith_next h
  rw [← hsame.err, ← hsame.enc, ← hsame.dec, ← hprog]
  cases hturn : (nextTurn s).1 <;> rw [hturn] at hu
  case host =>
    obtain hblock | ⟨place, w, rest, hline, h0, hc⟩ := hostStep_effect hu
    · exact .inl hblock.err
    · obtain hstay | hchange := hc.err
      · exact .inl hstay
      · exact .inr (.inr ⟨rfl, place, w, rest, hline, h0, hchange⟩)
  case enc a =>
    obtain ⟨-, herr, -⟩ := encStep_frame hu
    exact .inl herr
  case dec =>
    obtain ⟨-, herr, -⟩ := decStep_frame hu
    exact .inl herr
  case srcAppend p => cases hu; exact .inl rfl
  case srcClose => cases hu; exact .inl rfl
  case reset => cases hu; exact .inr (.inl ⟨rfl, rfl⟩)

/-! ### The two interfaces -/

theorem encStep_sinkTrace {a : Bool} {s t : State} (h : encStep a s = .next t) :
    t.sinkTrace = s.sinkTrace ∨ (a = true ∧ ∃ e, t.sinkTrace = s.sinkTrace ++ [e]) := by
  obtain rfl | ⟨ha, -, rfl⟩ | ⟨ha, -, -, y, -, rfl⟩ := encStep_next h
  · exact .inl rfl
  · exact .inr ⟨ha, _, rfl⟩
  · exact .inr ⟨ha, _, rfl⟩

/-- Settles O42: holding and rejecting leave queue and count; taking a symbol removes the head it was classified
from. -/
theorem consumesOnlyOnMatch : Obligations.ConsumesOnlyOnMatch := by
  unfold Obligations.ConsumesOnlyOnMatch
  intro M s t h
  obtain rfl | ⟨-, rfl⟩ | ⟨-, -, p, q, y, hq, hy, rfl⟩ := decStep_next h
  · exact .inl ⟨rfl, rfl⟩
  · exact .inl ⟨rfl, rfl⟩
  · exact .inr ⟨p, y, by simp [hq], by simp, classify_mem hy, classify_matches hy⟩

theorem decStep_srcQueue {M : Matcher} {s t : State} (h : decStep M s = .next t) :
    t.srcQueue = s.srcQueue ∨ ∃ p, s.srcQueue = p :: t.srcQueue := by
  obtain ⟨hq, -⟩ | ⟨p, y, hq, -⟩ := consumesOnlyOnMatch M s t h
  · exact .inl hq
  · exact .inr ⟨p, hq⟩

/-- Settles O55: each interface is touched by its own unit and its own collaborator only. -/
theorem interfacesAreFifo : Obligations.InterfacesAreFifo := by
  unfold Obligations.InterfacesAreFifo
  intro M s t h
  obtain ⟨u, hsame, -, hu⟩ := stepWith_next h
  rw [← hsame.sinkTrace, ← hsame.srcQueue, ← hsame.srcClosed]
  cases hturn : (nextTurn s).1 <;> rw [hturn] at hu
  case host =>
    obtain ⟨htrace, hqueue, hclosed⟩ := hostStep_interfaces hu
    exact ⟨.inl htrace, .inl hqueue, hclosed.trans⟩
  case enc a =>
    obtain ⟨-, -, hqueue, hclosed⟩ := encStep_frame hu
    refine ⟨?_, .inl hqueue, hclosed.trans⟩
    obtain hstay | ⟨rfl, hgrow⟩ := encStep_sinkTrace hu
    · exact .inl hstay
    · exact .inr ⟨rfl, hgrow⟩
  case dec =>
    obtain ⟨-, -, htrace, hclosed⟩ := decStep_frame hu
    refine ⟨.inl htrace, ?_, hclosed.trans⟩
    obtain hstay | hhead := decStep_srcQueue hu
    · exact .inl hstay
    · exact .inr (.inr ⟨rfl, hhead⟩)
  case srcAppend p =>
    cases hu
    refine ⟨.inl rfl, ?_, id⟩
    cases hc : u.srcClosed with
    | true => exact .inl (by simp [srcAppend, hc])
    | false => exact .inr (.inl ⟨p, rfl, rfl, by simp [srcAppend, hc]⟩)
  case srcClose => cases hu; exact ⟨.inl rfl, .inl rfl, fun _ => rfl⟩
  case reset => cases hu; exact ⟨.inl rfl, .inl rfl, id⟩

/-! ### Holding, and positions that never occur -/

/-- Settles O31: a stall and `IDLE` each leave ENC nothing to do. -/
theorem encoderHolds : Obligations.EncoderHolds := by
  unfold Obligations.EncoderHolds
  exact fun s => ⟨rfl, fun hp => by simp [encStep, hp]⟩

theorem busy_of_mem_candidates {st : DecState} {y : Symbol} (h : y ∈ candidates st) : st.busy = true := by
  cases st with
  | idle | accepted | rejected => simp [candidates] at h
  | awaitSync | readDevice | readGroup | readPayload | awaitStop1 | awaitStop2 => rfl

/-- Settles O59: the index is the only thing `txSymbol` and `takeSymbol` check. -/
theorem illegalPositionsFault : Obligations.IllegalPositionsFault := by
  unfold Obligations.IllegalPositionsFault
  constructor
  · intro s y hw hp hk
    have hk' : ¬ s.enc.k.toNat ≤ 26 := by omega
    simp [exec_symbol, wireSymbol, hw, txSymbol, hp, hk']
  · intro s y p q hw hq hy hi
    have hhead : srcHead s = .pulse p := srcHead_pulse.mpr ⟨q, hq⟩
    have htake : takeSymbol y s = .fault .decPosition := if_neg (by omega)
    simp [exec_symbol, wireSymbol, hw, rxSymbol, busy_of_mem_candidates hy, hhead, hy, htake]

/-! ### The registers -/

theorem regValue_encStatus (s : State) : regValue s 0x04 = encStatusReg s := rfl
theorem regValue_encMsg (s : State) : regValue s 0x08 = encMsgReg s := rfl
theorem regValue_decStatus (s : State) : regValue s 0x0C = decStatusReg s := rfl
theorem regValue_decMsg (s : State) : regValue s 0x10 = decMsgReg s := rfl
theorem regValue_err (s : State) : regValue s 0x14 = errReg s := rfl

/-- Settles O56: the decoder's registers are read from position, count and message, and a legal decoder shows no message
outside `ACCEPTED`. -/
theorem accumulatorsHidden : Obligations.AccumulatorsHidden := by
  unfold Obligations.AccumulatorsHidden
  refine ⟨fun s a g p off => rfl, fun s hs hst => ?_⟩
  rw [regValue_decMsg, decMsgReg, Dec.msg_eq_zero hs.2 hst]
  rfl

theorem Enc.busy_iff (e : Enc) : e.busy = true ↔ e.phase ≠ .idle := by
  unfold Enc.busy
  split <;> simp_all

theorem DecState.busy_iff (st : DecState) : st.busy = true ↔ 1 ≤ st.code.toNat ∧ st.code.toNat ≤ 6 := by
  cases st <;> decide

theorem DecState.terminal_iff (st : DecState) : st.terminal = true ↔ st.code = 7#4 ∨ st.code = 8#4 := by
  cases st <;> decide

theorem DecState.accept_iff (st : DecState) : st.accept = true ↔ st = .accepted := by
  cases st <;> decide

theorem extract_eq_of_div {n l : Nat} {x : BitVec n} {i : Nat} {v : BitVec l} (h : x.toNat / 2 ^ i % 2 ^ l = v.toNat) :
    x.extractLsb' i l = v :=
  BitVec.eq_of_toNat_eq ((extract_toNat_div x i l).trans h)

theorem extract_eq_zero_of_div {n l : Nat} {x : BitVec n} {i : Nat} (h : x.toNat / 2 ^ i % 2 ^ l = 0) :
    x.extractLsb' i l = 0#l :=
  extract_eq_of_div (h.trans BitVec.toNat_zero.symm)

theorem getLsbD_eq_of_div {n : Nat} {x : BitVec n} {i : Nat} {b : Bool} (h : x.toNat / 2 ^ i % 2 = b.toNat) :
    x.getLsbD i = b :=
  Function.LeftInverse.injective Bool.ofNat_toNat ((Nat.toNat_testBit x.toNat i).trans h)

/-- `ENC_STATUS` as a number: each field at its place (R41). -/
theorem encStatusReg_toNat (s : State) :
    (encStatusReg s).toNat =
      s.enc.carrier.toNat * 2 ^ 10 + s.enc.done.toNat * 2 ^ 9 + s.enc.busy.toNat * 2 ^ 8 + s.enc.k.toNat := by
  simp only [encStatusReg, append_toNat_shift, BitVec.toNat_ofNat, BitVec.toNat_ofBool]
  omega

/-- `DEC_STATUS` as a number: each field at its place (R43). -/
theorem decStatusReg_toNat (s : State) :
    (decStatusReg s).toNat =
      s.dec.state.accept.toNat * 2 ^ 18 + s.dec.state.terminal.toNat * 2 ^ 17 + s.dec.state.busy.toNat * 2 ^ 16 +
        s.dec.consumed.toNat * 2 ^ 8 + s.dec.i.toNat * 2 ^ 4 + s.dec.state.code.toNat := by
  simp only [decStatusReg, append_toNat_shift, BitVec.toNat_ofNat, BitVec.toNat_ofBool]
  omega

/-- `ENC_MSG` as a number (R42). -/
theorem encMsgReg_toNat (s : State) : (encMsgReg s).toNat = s.enc.msg.toNat := by
  simp only [encMsgReg, append_toNat_shift, BitVec.toNat_ofNat]
  omega

/-- `ERR` as a number: each flag at its place (R45). -/
theorem errReg_toNat (s : State) :
    (errReg s).toNat = s.err.decDrop.toNat * 2 ^ 2 + s.err.encDrop.toNat * 2 + s.err.ill.toNat := by
  simp only [errReg, append_toNat_shift, BitVec.toNat_ofNat, BitVec.toNat_ofBool]
  omega

theorem encStatusReg_fields (s : State) :
    (encStatusReg s).extractLsb' 0 6 = s.enc.k ∧ (encStatusReg s).extractLsb' 6 2 = 0#2 ∧
    (encStatusReg s).getLsbD 8 = s.enc.busy ∧ (encStatusReg s).getLsbD 9 = s.enc.done ∧
    (encStatusReg s).getLsbD 10 = s.enc.carrier ∧ (encStatusReg s).extractLsb' 11 21 = 0#21 := by
  have hreg := encStatusReg_toNat s
  have hk := s.enc.k.isLt
  have hbusy := Bool.toNat_lt s.enc.busy
  have hdone := Bool.toNat_lt s.enc.done
  have hcarrier := Bool.toNat_lt s.enc.carrier
  refine ⟨extract_eq_of_div ?_, extract_eq_zero_of_div ?_, getLsbD_eq_of_div ?_, getLsbD_eq_of_div ?_,
    getLsbD_eq_of_div ?_, extract_eq_zero_of_div ?_⟩
  all_goals rw [hreg]; omega

theorem decStatusReg_fields (s : State) :
    (decStatusReg s).extractLsb' 0 4 = s.dec.state.code ∧ (decStatusReg s).extractLsb' 4 4 = s.dec.i ∧
    (decStatusReg s).extractLsb' 8 6 = s.dec.consumed ∧ (decStatusReg s).extractLsb' 14 2 = 0#2 ∧
    (decStatusReg s).getLsbD 16 = s.dec.state.busy ∧ (decStatusReg s).getLsbD 17 = s.dec.state.terminal ∧
    (decStatusReg s).getLsbD 18 = s.dec.state.accept ∧ (decStatusReg s).extractLsb' 19 13 = 0#13 := by
  have hreg := decStatusReg_toNat s
  have hcode := s.dec.state.code.isLt
  have hi := s.dec.i.isLt
  have hcount := s.dec.consumed.isLt
  have hbusy := Bool.toNat_lt s.dec.state.busy
  have hdone := Bool.toNat_lt s.dec.state.terminal
  have haccept := Bool.toNat_lt s.dec.state.accept
  refine ⟨extract_eq_of_div ?_, extract_eq_of_div ?_, extract_eq_of_div ?_, extract_eq_zero_of_div ?_,
    getLsbD_eq_of_div ?_, getLsbD_eq_of_div ?_, getLsbD_eq_of_div ?_, extract_eq_zero_of_div ?_⟩
  all_goals rw [hreg]; omega

theorem encMsgReg_fields (s : State) :
    (encMsgReg s).extractLsb' 0 24 = s.enc.msg ∧ (encMsgReg s).extractLsb' 24 8 = 0#8 := by
  have hreg := encMsgReg_toNat s
  have hmsg := s.enc.msg.isLt
  refine ⟨extract_eq_of_div ?_, extract_eq_zero_of_div ?_⟩
  all_goals rw [hreg]; omega

theorem errReg_fields (s : State) :
    (errReg s).getLsbD 0 = s.err.ill ∧ (errReg s).getLsbD 1 = s.err.encDrop ∧
    (errReg s).getLsbD 2 = s.err.decDrop ∧ (errReg s).extractLsb' 3 29 = 0#29 := by
  have hreg := errReg_toNat s
  have hill := Bool.toNat_lt s.err.ill
  have hedrop := Bool.toNat_lt s.err.encDrop
  have hddrop := Bool.toNat_lt s.err.decDrop
  refine ⟨getLsbD_eq_of_div ?_, getLsbD_eq_of_div ?_, getLsbD_eq_of_div ?_, extract_eq_zero_of_div ?_⟩
  all_goals rw [hreg]; omega

/-- Settles O23: register by register, with each status bit's meaning. -/
theorem registerFields : Obligations.RegisterFields := by
  unfold Obligations.RegisterFields
  refine ⟨fun s => ?_, rfl, rfl, rfl, rfl⟩
  simp only [regValue_encStatus, regValue_encMsg, regValue_decStatus, regValue_err]
  obtain ⟨hk, hrsv, hbusy, hdone, hcarrier, hhigh⟩ := encStatusReg_fields s
  obtain ⟨hcode, hi, hcount, hrsv', hbusy', hdone', haccept, hhigh'⟩ := decStatusReg_fields s
  obtain ⟨hmsg, hmsgHigh⟩ := encMsgReg_fields s
  obtain ⟨hill, hedrop, hddrop, herrHigh⟩ := errReg_fields s
  exact ⟨hk, hrsv, by rw [hbusy, Enc.busy_iff], hdone, hcarrier, hhigh, hmsg, hmsgHigh, hcode, hi, hcount, hrsv',
    by rw [hbusy', DecState.busy_iff], by rw [hdone', DecState.terminal_iff], by rw [haccept, DecState.accept_iff],
    hhigh', hill, hedrop, hddrop, herrHigh⟩

end Sys2Proof.Machine
end

section
/-! PROOFS. Host access (R51 to R53, R178), and the two units apart from each other (R62, R130, R157). -/

namespace Sys2Proof.Machine

/-! ### Which accesses the block answers -/

theorem hostStep_write {s : State} {place : Place} {width : Nat} {v : Word} {rest : List HostLine}
    (h : s.hostProg = .write place width v :: rest) :
    hostStep s = guardAccess place width (regWrite place.offset v (setHostProg s rest)) := by
  rw [hostStep, h]

theorem hostStep_read {s : State} {place : Place} {width : Nat} {rest : List HostLine}
    (h : s.hostProg = .read place width :: rest) :
    hostStep s = guardAccess place width (.next (hostReturn (setHostProg s rest) (regValue s place.offset))) := by
  rw [hostStep, h]

theorem hostStep_poll {s : State} {off : Nat} {mask v : Word} {rest : List HostLine}
    (h : s.hostProg = .poll off mask v :: rest) :
    hostStep s = guardAccess (.off off) 4
      (.next (hostReturn (if regValue s off &&& mask = v then setHostProg s rest else s) (regValue s off))) := by
  rw [hostStep, h]

theorem inWindow_off_iff {n : Nat} : (Place.off n).inWindow = true ↔ n < 32 := decide_eq_true_iff

theorem inWindow_addr_iff {a : Nat} :
    (Place.addr a).inWindow = true ↔ Config.regBase ≤ a ∧ a < Config.regBase + 32 := by
  rw [Place.inWindow, Bool.and_eq_true]
  exact and_congr decide_eq_true_iff decide_eq_true_iff

theorem accessAdmitted_iff {off width : Nat} : accessAdmitted off width = true ↔ width = 4 ∧ off % 4 = 0 := by
  simp [accessAdmitted]

theorem guardAccess_of_not_admitted {place : Place} {width : Nat} {r : Result} (hw : place.inWindow = true)
    (ha : width ≠ 4 ∨ place.offset % 4 ≠ 0) : guardAccess place width r = .refused .badAccess := by
  have hadm : ¬ accessAdmitted place.offset width = true := by
    rw [accessAdmitted_iff]
    omega
  rw [guardAccess, if_pos hw, if_neg hadm]

theorem guardAccess_of_outside {place : Place} {width : Nat} {r : Result} (hw : ¬ place.inWindow = true) :
    guardAccess place width r = .refused .outsideWindow :=
  if_neg hw

/-- In the window only the offset of an access matters, not how its place is named (R52). -/
theorem guardAccess_congr {p q : Place} {width : Nat} {r : Result} (hp : p.inWindow = true) (hq : q.inWindow = true)
    (hoff : p.offset = q.offset) : guardAccess p width r = guardAccess q width r := by
  rw [guardAccess, guardAccess, if_pos hp, if_pos hq, hoff]

/-- Settles O25: every line of the host passes the check of width and offset first. -/
theorem badAccessIsRefused : Obligations.BadAccessIsRefused := by
  unfold Obligations.BadAccessIsRefused
  intro s off width v mask rest hoff
  have hw := inWindow_off_iff.mpr hoff
  refine ⟨fun hbad hline => ?_, fun hbad hpoll => ?_⟩
  · obtain hwrite | hread := hline
    · exact (hostStep_write hwrite).trans (guardAccess_of_not_admitted hw hbad)
    · exact (hostStep_read hread).trans (guardAccess_of_not_admitted hw hbad)
  · exact (hostStep_poll hpoll).trans (guardAccess_of_not_admitted hw (.inr hbad))

/-- Settles O26: the check and the register are found from the offset alone, and the window is checked before both. -/
theorem windowAddressDecode : Obligations.WindowAddressDecode := by
  unfold Obligations.WindowAddressDecode
  refine ⟨Nat.mul_mod_right 32 _, fun s a width v rest => ⟨fun hlo hhi => ?_, fun hout => ?_⟩⟩
  · have haddr := inWindow_addr_iff.mpr ⟨hlo, hhi⟩
    have hoff : (Place.off (a - Config.regBase)).inWindow = true := inWindow_off_iff.mpr (by omega)
    exact ⟨guardAccess_congr haddr hoff rfl, guardAccess_congr haddr hoff rfl⟩
  · have haddr : ¬ (Place.addr a).inWindow = true := by
      rw [inWindow_addr_iff]
      omega
    exact ⟨guardAccess_of_outside haddr, guardAccess_of_outside haddr⟩

/-! ### ENC's step, case by case -/

theorem encStep_stall (s : State) : encStep false s = .next s := rfl

theorem encStep_idle {a : Bool} {s : State} (hp : s.enc.phase = .idle) : encStep a s = .next s := by
  simp [encStep, hp]

theorem encStep_carrier {s : State} (hp : s.enc.phase = .carrier) : encStep true s = .next (emitCarrier s) := by
  simp [encStep, hp]

theorem encStep_pulses {s : State} {y : Symbol} (hp : s.enc.phase = .pulses)
    (hy : symbolAt s.enc.msg s.enc.k.toNat = some y) :
    encStep true s = .next (setEnc (sinkPut s y.event) s.enc.advance) := by
  simp [encStep, hp, hy, execOnWire_tx hp (symbolAt_isSome.mp ⟨y, hy⟩)]

theorem encStep_overrun {s : State} (hp : s.enc.phase = .pulses) (hy : symbolAt s.enc.msg s.enc.k.toNat = none) :
    encStep true s = .fault .encPosition := by
  simp [encStep, hp, hy]

/-- What ENC's step writes, the new elements and the events appended, follows from ENC's elements alone (R130). -/
theorem encStep_isolated {a : Bool} {s t : State} (h : encStep a s = .next t) :
    ∃ (e : Enc) (evs : List SinkEvent), t = { s with enc := e, sinkTrace := s.sinkTrace ++ evs } ∧
      ∀ u : State, u.enc = s.enc → encStep a u = .next { u with enc := e, sinkTrace := u.sinkTrace ++ evs } := by
  suffices hall : ∃ (e : Enc) (evs : List SinkEvent), ∀ u : State, u.enc = s.enc →
      encStep a u = .next { u with enc := e, sinkTrace := u.sinkTrace ++ evs } by
    obtain ⟨e, evs, hu⟩ := hall
    exact ⟨e, evs, Host.Outcome.next.inj (h.symm.trans (hu s rfl)), hu⟩
  cases a with
  | false => exact ⟨s.enc, [], fun u hu => by rw [encStep_stall, ← hu, List.append_nil]⟩
  | true =>
    cases hp : s.enc.phase with
    | idle => exact ⟨s.enc, [], fun u hu => by rw [encStep_idle (hu ▸ hp), ← hu, List.append_nil]⟩
    | carrier =>
      refine ⟨{ s.enc with carrier := true, phase := .pulses }, [.carrier Config.carrierHz], fun u hu => ?_⟩
      rw [encStep_carrier (hu ▸ hp), ← hu]
      rfl
    | pulses =>
      cases hy : symbolAt s.enc.msg s.enc.k.toNat with
      | none => rw [encStep_overrun hp hy] at h; cases h
      | some y =>
        refine ⟨s.enc.advance, [y.event], fun u hu => ?_⟩
        rw [encStep_pulses (hu ▸ hp) (hu ▸ hy), ← hu]
        rfl

/-! ### DEC's step, case by case -/

theorem decStep_of_not_busy {M : Matcher} {s : State} (hb : ¬ s.dec.state.busy = true) : decStep M s = .next s := by
  simp [decStep, hb]

theorem decStep_of_wait {M : Matcher} {s : State} (hh : srcHead s = .wait) : decStep M s = .next s := by
  simp [decStep, hh]

theorem decStep_of_ended {M : Matcher} {s : State} (hb : s.dec.state.busy = true) (hh : srcHead s = .ended) :
    decStep M s = .next (frameMismatch s) := by
  simp [decStep, hb, hh]

theorem decStep_of_no_match {M : Matcher} {s : State} {p : Pulse} (hb : s.dec.state.busy = true)
    (hh : srcHead s = .pulse p) (hc : classify M s.dec.state p = none) : decStep M s = .next (frameMismatch s) := by
  simp [decStep, hb, hh, hc]

theorem decStep_of_match {M : Matcher} {s : State} {p : Pulse} {y : Symbol} (hb : s.dec.state.busy = true)
    (hh : srcHead s = .pulse p) (hc : classify M s.dec.state p = some y) : decStep M s = takeSymbol y s := by
  simp [decStep, hb, hh, hc, execOnWire_rx hb hh (classify_mem hc)]

theorem takeSymbol_of_index_le {s : State} (hi : s.dec.i.toNat ≤ s.dec.state.lastIndex) (y : Symbol) :
    takeSymbol y s = .next (setDec (consume s) ((consume s).dec.advance y)) :=
  if_pos hi

/-- What DEC's step writes, the new elements and the pulses removed, follows from DEC's elements and the source's head
alone (R157). -/
theorem decStep_isolated {M : Matcher} {s t : State} (h : decStep M s = .next t) :
    ∃ (d : Dec) (n : Nat), n ≤ 1 ∧ t = { s with dec := d, srcQueue := s.srcQueue.drop n } ∧
      ∀ u : State, u.dec = s.dec → srcHead u = srcHead s →
        decStep M u = .next { u with dec := d, srcQueue := u.srcQueue.drop n } := by
  suffices hall : ∃ (d : Dec) (n : Nat), n ≤ 1 ∧ ∀ u : State, u.dec = s.dec → srcHead u = srcHead s →
      decStep M u = .next { u with dec := d, srcQueue := u.srcQueue.drop n } by
    obtain ⟨d, n, hn, hu⟩ := hall
    exact ⟨d, n, hn, Host.Outcome.next.inj (h.symm.trans (hu s rfl rfl)), hu⟩
  by_cases hb : s.dec.state.busy = true
  case neg =>
    exact ⟨s.dec, 0, Nat.zero_le 1, fun u hu _ => by rw [decStep_of_not_busy (hu ▸ hb), ← hu, List.drop_zero]⟩
  cases hh : srcHead s with
  | wait => exact ⟨s.dec, 0, Nat.zero_le 1, fun u hu hhu => by rw [decStep_of_wait hhu, ← hu, List.drop_zero]⟩
  | ended =>
    refine ⟨(frameMismatch s).dec, 0, Nat.zero_le 1, fun u hu hhu => ?_⟩
    rw [decStep_of_ended (hu ▸ hb) hhu, frameMismatch, hu]
    rfl
  | pulse p =>
    cases hc : classify M s.dec.state p with
    | none =>
      refine ⟨(frameMismatch s).dec, 0, Nat.zero_le 1, fun u hu hhu => ?_⟩
      rw [decStep_of_no_match (hu ▸ hb) hhu (hu ▸ hc), frameMismatch, hu]
      rfl
    | some y =>
      rw [decStep_of_match hb hh hc] at h
      obtain ⟨hi, -⟩ := takeSymbol_next h
      refine ⟨(consume s).dec.advance y, 1, Nat.le_refl 1, fun u hu hhu => ?_⟩
      rw [decStep_of_match (hu ▸ hb) hhu (hu ▸ hc), takeSymbol_of_index_le (hu ▸ hi), consume, hu, List.drop_one]
      rfl

/-! ### The two units together -/

/-- In a legal state ENC's step ends in a next state: the frame has a symbol at `enc_k` (R26, R123). -/
theorem encStep_next_of_legal (a : Bool) {s : State} (hs : s.enc.legal) : ∃ t, encStep a s = .next t := by
  cases a with
  | false => exact ⟨s, encStep_stall s⟩
  | true =>
    cases hp : s.enc.phase with
    | idle => exact ⟨s, encStep_idle hp⟩
    | carrier => exact ⟨_, encStep_carrier hp⟩
    | pulses =>
      obtain ⟨y, hy⟩ := (symbolAt_isSome (m := s.enc.msg)).mpr (Enc.legal_k_le hs hp)
      exact ⟨_, encStep_pulses hp hy⟩

/-- In a legal state DEC's step ends in a next state: `dec_i` is in its field (R30). -/
theorem decStep_next_of_legal (M : Matcher) {s : State} (hs : s.dec.legal) : ∃ t, decStep M s = .next t := by
  obtain ⟨hi, -⟩ := hs
  by_cases hb : s.dec.state.busy = true
  case neg => exact ⟨s, decStep_of_not_busy hb⟩
  cases hh : srcHead s with
  | wait => exact ⟨s, decStep_of_wait hh⟩
  | ended => exact ⟨_, decStep_of_ended hb hh⟩
  | pulse p =>
    cases hc : classify M s.dec.state p with
    | none => exact ⟨_, decStep_of_no_match hb hh hc⟩
    | some y => exact ⟨_, (decStep_of_match hb hh hc).trans (takeSymbol_of_index_le hi y)⟩

/-- Settles O49: in a legal state both units step, and each writes only what the other's step neither reads nor
writes. -/
theorem unitsCommute : Obligations.UnitsCommute := by
  unfold Obligations.UnitsCommute
  intro M s a hs
  obtain ⟨t, henc⟩ := encStep_next_of_legal a hs.1
  obtain ⟨u, hdec⟩ := decStep_next_of_legal M hs.2
  obtain ⟨e, evs, ht, hencAll⟩ := encStep_isolated henc
  obtain ⟨d, n, -, hu, hdecAll⟩ := decStep_isolated hdec
  have hdec' := hdecAll t (by rw [ht]) (by rw [ht]; rfl)
  have henc' := hencAll u (by rw [hu])
  rw [henc, hdec, andThen_next, andThen_next, hdec', henc', ht, hu]

end Sys2Proof.Machine
end

section
/-! PROOFS. The encodings: command words and pulse-unit words (R72 to R75, R81 to R86), the message word and the frame
that carries it (R76, R80, R123), and the pseudo-command ENCODE (R89). -/

namespace Sys2Proof

open Machine

/-! ### Command words, field by field -/

/-- Two words with the same three command fields are equal (R81). -/
theorem word_eq_of_fields {v w : Word} (hop : opField v = opField w) (hrsv : rsvField v = rsvField w)
    (harg : argField v = argField w) : v = w :=
  BitVec.eq_of_toNat_eq (by rw [word_toNat_fields v, word_toNat_fields w, hop, hrsv, harg])

@[simp] theorem opField_encode_encode (d : BitVec 5) (g : BitVec 15) (p : BitVec 4) :
    opField (encode (.encode d g p)) = 1#4 := by
  have := (packMsg d g p).isLt
  apply BitVec.eq_of_toNat_eq
  rw [opField_toNat, encode_encode_toNat, BitVec.toNat_ofNat]
  omega

@[simp] theorem rsvField_encode_encode (d : BitVec 5) (g : BitVec 15) (p : BitVec 4) :
    rsvField (encode (.encode d g p)) = 0#4 := by
  have := (packMsg d g p).isLt
  apply BitVec.eq_of_toNat_eq
  rw [rsvField_toNat, encode_encode_toNat, BitVec.toNat_ofNat]
  omega

@[simp] theorem argField_encode_encode (d : BitVec 5) (g : BitVec 15) (p : BitVec 4) :
    argField (encode (.encode d g p)) = packMsg d g p := by
  have := (packMsg d g p).isLt
  apply BitVec.eq_of_toNat_eq
  rw [argField_toNat, encode_encode_toNat]
  omega

/-- The operand fields of ENCODE as bits of the whole command word (R82, R86). -/
theorem argField_operands (w : Word) :
    deviceField (argField w) = w.extractLsb' 19 5 ∧ groupField (argField w) = w.extractLsb' 4 15 ∧
    payloadField (argField w) = w.extractLsb' 0 4 := by
  refine ⟨?_, ?_, ?_⟩ <;> apply BitVec.eq_of_toNat_eq
  · rw [deviceField_toNat, argField_toNat, extract_toNat_div]
    omega
  · rw [groupField_toNat, argField_toNat, extract_toNat_div]
    omega
  · rw [payloadField_toNat, argField_toNat, extract_toNat_div]
    omega

/-! ### The decoder of command words -/

/-- Every word with `OP` 1 and `RSV` 0 is an ENCODE (R82). -/
theorem decodeCommand_of_op_one {w : Word} (hop : opField w = 1#4) (hrsv : rsvField w = 0#4) :
    decodeCommand w =
      .ok (.encode (deviceField (argField w)) (groupField (argField w)) (payloadField (argField w))) := by
  simp [decodeCommand, hop, hrsv]

theorem decodeCommand_encode_encode (d : BitVec 5) (g : BitVec 15) (p : BitVec 4) :
    decodeCommand (encode (.encode d g p)) = .ok (.encode d g p) := by
  simp [decodeCommand_of_op_one]

/-- An instruction is a wire symbol, or a command whose word decodes to it. -/
theorem symbol_or_decodeCommand_encode (i : Instr) :
    (∃ y : Symbol, i = y.instr) ∨ decodeCommand (encode i) = .ok i := by
  cases i with
  | nop | decode | clrerr => exact .inr rfl
  | encode d g p => exact .inr (decodeCommand_encode_encode d g p)
  | sync => exact .inl ⟨.sync, rfl⟩
  | bit1 => exact .inl ⟨.bit1, rfl⟩
  | bit0 => exact .inl ⟨.bit0, rfl⟩
  | stop => exact .inl ⟨.stop, rfl⟩

/-- Only the encoder's word decodes to a command. -/
theorem eq_encode_of_decodeCommand {w : Word} {i : Instr} (h : decodeCommand w = .ok i) : w = encode i := by
  obtain ⟨hrsv, ⟨hop, harg, rfl⟩ | ⟨hop, d, g, p, rfl⟩ | ⟨hop, harg, rfl⟩ | ⟨hop, harg, rfl⟩⟩ :=
    decodeCommand_ok_fields h
  · exact word_eq_of_fields hop hrsv harg
  · rw [decodeCommand_of_op_one hop hrsv] at h
    cases h
    apply word_eq_of_fields <;> simp [hop, hrsv]
  · exact word_eq_of_fields hop hrsv harg
  · exact word_eq_of_fields hop hrsv harg

theorem decodeCommand_ne_symbol (w : Word) (y : Symbol) : decodeCommand w ≠ .ok y.instr := by
  intro h
  cases y <;> simpa [Symbol.instr] using decodeCommand_command h

/-- An instruction that decodes from its own word decodes from no other. -/
theorem decodeCommand_eq_ok_iff {w : Word} {i : Instr} (hi : decodeCommand (encode i) = .ok i) :
    decodeCommand w = .ok i ↔ w = encode i :=
  ⟨eq_encode_of_decodeCommand, fun hw => hw ▸ hi⟩

/-! ### Both formats together -/

@[simp] theorem encode_symbol (y : Symbol) : encode y.instr = y.nominal.word := by
  cases y <;> rfl

theorem decodeSymbol_eq_ok_iff {w : Word} {y : Symbol} : decodeSymbol w = .ok y ↔ w = y.nominal.word := by
  constructor
  · intro h
    unfold decodeSymbol at h
    split at h
    next hw => cases h; exact hw
    split at h
    next hw => cases h; exact hw
    split at h
    next hw => cases h; exact hw
    split at h
    next hw => cases h; exact hw
    cases h
  · rintro rfl
    cases y <;> rfl

/-- The symbols' words are reserved at `CMD` (log 13). -/
theorem decodeCommand_symbolWord (y : Symbol) : decodeCommand y.nominal.word = .error .reservedRsv := by
  cases y <;> rfl

theorem decodeWord_of_symbol {w : Word} {y : Symbol} (h : decodeSymbol w = .ok y) : decodeWord w = .ok y.instr := by
  rw [decodeWord, h]

/-- A word of the command format is no symbol's word, so the shared decoder reads it as the command. -/
theorem decodeWord_of_command {w : Word} {i : Instr} (h : decodeCommand w = .ok i) : decodeWord w = .ok i := by
  cases hy : decodeSymbol w with
  | ok y =>
    rw [decodeSymbol_eq_ok_iff.mp hy, decodeCommand_symbolWord] at h
    cases h
  | error e => rw [decodeWord, hy, h]

/-- The shared decoder answers a symbol or what the decoder of command words answers. -/
theorem decodeWord_ok_cases {w : Word} {i : Instr} (h : decodeWord w = .ok i) :
    (∃ y : Symbol, decodeSymbol w = .ok y ∧ i = y.instr) ∨ decodeCommand w = .ok i := by
  unfold decodeWord at h
  split at h
  next y hy => exact .inl ⟨y, hy, (Except.ok.inj h).symm⟩
  next => exact .inr h

/-- Settles O3: format by format, since no word belongs to both. -/
theorem decodeEncodeAgree : Obligations.DecodeEncodeAgree := by
  unfold Obligations.DecodeEncodeAgree
  intro w i
  constructor
  · intro h
    obtain ⟨y, hy, rfl⟩ | hc := decodeWord_ok_cases h
    · rw [decodeSymbol_eq_ok_iff.mp hy, encode_symbol]
    · exact eq_encode_of_decodeCommand hc
  · rintro rfl
    obtain ⟨y, rfl⟩ | hc := symbol_or_decodeCommand_encode i
    · exact decodeWord_of_symbol (decodeSymbol_eq_ok_iff.mpr (encode_symbol y))
    · exact decodeWord_of_command hc

/-! ### The command table -/

theorem and_full_mask (w : Word) : w &&& 0xFFFFFFFF#32 = w := BitVec.and_allOnes

/-- The row of ENCODE fixes the fields `OP` and `RSV` (R82). -/
theorem fields_of_encode_mask {w : Word} (h : w &&& 0xFF000000#32 = 0x10000000#32) :
    opField w = 1#4 ∧ rsvField w = 0#4 := by
  have hop : opField (w &&& 0xFF000000#32) = opField w := BitVec.extractLsb'_and.trans BitVec.and_allOnes
  have hrsv : rsvField (w &&& 0xFF000000#32) = rsvField w := BitVec.extractLsb'_and.trans BitVec.and_allOnes
  rw [← hop, ← hrsv, h]
  exact ⟨rfl, rfl⟩

/-- ENCODE's row: its match under its mask, and its operands (R82). -/
theorem decodeCommand_encode_iff (w : Word) (d : BitVec 5) (g : BitVec 15) (p : BitVec 4) :
    decodeCommand w = .ok (.encode d g p) ↔
      w &&& 0xFF000000#32 = 0x10000000#32 ∧
      d = w.extractLsb' 19 5 ∧ g = w.extractLsb' 4 15 ∧ p = w.extractLsb' 0 4 := by
  obtain ⟨hd, hg, hp⟩ := argField_operands w
  constructor
  · intro h
    have hw := eq_encode_of_decodeCommand h
    rw [← hd, ← hg, ← hp, hw]
    exact ⟨Laws.TableRow.encode d g p, by simp⟩
  · rintro ⟨hmask, rfl, rfl, rfl⟩
    obtain ⟨hop, hrsv⟩ := fields_of_encode_mask hmask
    rw [decodeCommand_of_op_one hop hrsv, hd, hg, hp]

/-- Settles O1: the three rows without operand have one word each, and ENCODE's row is `decodeCommand_encode_iff`. -/
theorem commandTableRows : Obligations.CommandTableRows := by
  unfold Obligations.CommandTableRows
  intro w
  simp only [and_full_mask]
  exact ⟨decodeCommand_eq_ok_iff rfl, decodeCommand_encode_iff w, decodeCommand_eq_ok_iff rfl,
    decodeCommand_eq_ok_iff rfl, decodeCommand_ne_symbol w⟩

/-- The four `OP` values that name a command (R82). -/
theorem op_cases_of_lt {op : BitVec 4} (h : op.toNat < 4) : op = 0#4 ∨ op = 1#4 ∨ op = 2#4 ∨ op = 3#4 := by
  simp only [← BitVec.toNat_inj, BitVec.toNat_ofNat]
  omega

theorem plainCommand_of_arg_zero {w : Word} {i : Instr} (h : argField w = 0#24) : plainCommand w i = .ok i :=
  if_pos h

/-- The reserved words of R83, by their fields. -/
theorem decodeCommand_error_iff (w : Word) :
    (∃ e, decodeCommand w = .error e) ↔
      4 ≤ (opField w).toNat ∨ rsvField w ≠ 0#4 ∨
      ((opField w = 0#4 ∨ opField w = 2#4 ∨ opField w = 3#4) ∧ argField w ≠ 0#24) := by
  constructor
  · rintro ⟨e, h⟩
    by_contra hlegal
    obtain ⟨hop, hrsv, harg⟩ : (opField w).toNat < 4 ∧ rsvField w = 0#4 ∧
        (opField w = 0#4 ∨ opField w = 2#4 ∨ opField w = 3#4 → argField w = 0#24) := by
      simpa using hlegal
    obtain hop | hop | hop | hop := op_cases_of_lt hop
    · simp [decodeCommand, hrsv, hop, plainCommand_of_arg_zero (harg (.inl hop))] at h
    · simp [decodeCommand_of_op_one hop hrsv] at h
    · simp [decodeCommand, hrsv, hop, plainCommand_of_arg_zero (harg (.inr (.inl hop)))] at h
    · simp [decodeCommand, hrsv, hop, plainCommand_of_arg_zero (harg (.inr (.inr hop)))] at h
  · intro hreserved
    cases h : decodeCommand w with
    | error e => exact ⟨e, rfl⟩
    | ok i =>
      obtain ⟨hrsv, ⟨hop, harg, -⟩ | ⟨hop, -⟩ | ⟨hop, harg, -⟩ | ⟨hop, harg, -⟩⟩ := decodeCommand_ok_fields h
      · simp [hrsv, hop, harg] at hreserved
      · simp [hrsv, hop] at hreserved
      · simp [hrsv, hop, harg] at hreserved
      · simp [hrsv, hop, harg] at hreserved

theorem performCommand_of_error {w : Word} {e : DecodeReject} (h : decodeCommand w = .error e) (s : State) :
    performCommand w s = .next (raiseIll s) := by
  rw [performCommand, h]

/-- Settles O2: the reserved words are found by their fields, and `performCommand` answers each with `raiseIll`. -/
theorem reservedWordsOnlySetIll : Obligations.ReservedWordsOnlySetIll := by
  unfold Obligations.ReservedWordsOnlySetIll
  exact fun w => ⟨decodeCommand_error_iff w, fun ⟨_, he⟩ s => performCommand_of_error he s⟩

/-- Settles O4: the words of commands and symbols are the encoder's, and the symbols' words are reserved by
`decodeCommand_symbolWord`. -/
theorem specWordsDecode : Obligations.SpecWordsDecode := by
  unfold Obligations.SpecWordsDecode
  exact ⟨rfl, decodeCommand_encode_encode 5#5 100#15 3#4, decodeCommand_encode_encode 21#5 0x5555#15 10#4, rfl, rfl,
    rfl, rfl, rfl, decodeSymbol_eq_ok_iff.mpr rfl, decodeSymbol_eq_ok_iff.mpr rfl, decodeSymbol_eq_ok_iff.mpr rfl,
    decodeSymbol_eq_ok_iff.mpr rfl, decodeCommand_symbolWord⟩

/-! ### The frame -/

theorem symbolAt_zero (m : MsgWord) : symbolAt m 0 = some .sync := rfl

theorem symbolAt_stop {m : MsgWord} {k : Nat} (h1 : 25 ≤ k) (h2 : k ≤ 26) : symbolAt m k = some .stop := by
  rw [symbolAt, if_neg (by omega), if_neg (by omega), if_pos h2]

theorem symbolAt_beyond {m : MsgWord} {k : Nat} (h : 27 ≤ k) : symbolAt m k = none := by
  rw [symbolAt, if_neg (by omega), if_neg (by omega), if_neg (by omega)]

/-- A frame index is that of SYNC, of a bit-unit, of a STOP, or beyond the frame (R76). -/
theorem frame_index_cases (k : Nat) : k = 0 ∨ (1 ≤ k ∧ k ≤ 24) ∨ (25 ≤ k ∧ k ≤ 26) ∨ 27 ≤ k := by omega

/-- What stands where in a frame (R76, R123). -/
theorem symbolAt_eq_some_iff {m : MsgWord} {k : Nat} {y : Symbol} :
    symbolAt m k = some y ↔
      (k = 0 ∧ y = .sync) ∨ (1 ≤ k ∧ k ≤ 24 ∧ y = bitSym (m.getLsbD (24 - k))) ∨ (25 ≤ k ∧ k ≤ 26 ∧ y = .stop) := by
  obtain rfl | ⟨h1, h2⟩ | ⟨h1, h2⟩ | h := frame_index_cases k
  · simp [symbolAt_zero, eq_comm]
  · simp [symbolAt_bit h1 h2, h1, h2, show k ≠ 0 by omega, show ¬ 25 ≤ k by omega, eq_comm]
  · simp [symbolAt_stop h1 h2, h1, h2, show k ≠ 0 by omega, show ¬ k ≤ 24 by omega, eq_comm]
  · simp [symbolAt_beyond h, show k ≠ 0 by omega, show ¬ k ≤ 24 by omega, show ¬ k ≤ 26 by omega]

@[simp] theorem sync_ne_bitSym (b : Bool) : Symbol.sync ≠ bitSym b := by cases b <;> decide

@[simp] theorem stop_ne_bitSym (b : Bool) : Symbol.stop ≠ bitSym b := by cases b <;> decide

@[simp] theorem bit1_eq_bitSym_iff (b : Bool) : Symbol.bit1 = bitSym b ↔ b = true := by cases b <;> decide

@[simp] theorem bit0_eq_bitSym_iff (b : Bool) : Symbol.bit0 = bitSym b ↔ b = false := by cases b <;> decide

/-- Settles O5: the table is as written, and each symbol's indices are those of `symbolAt`. -/
theorem symbolTable : Obligations.SymbolTable := by
  unfold Obligations.SymbolTable
  refine ⟨rfl, rfl, rfl, rfl, rfl, rfl, rfl, rfl, fun m k => ?_⟩
  simp only [frame_getElem?, symbolAt_eq_some_iff]
  exact ⟨by simp, by simp, by simp, by simp; omega⟩

/-- The bit-unit at index `k` carries bit `24 - k` of the message word (R80). -/
theorem frame_messageBit (m : MsgWord) {k : Nat} (h1 : 1 ≤ k) (h2 : k ≤ 24) :
    (frame m)[k]? = some (if m.getLsbD (24 - k) then .bit1 else .bit0) :=
  (frame_getElem? m k).trans (symbolAt_bit h1 h2)

/-- Where bit `j` of the message word's field at bit `i` stands in the frame (R76, R80). -/
theorem frame_fieldBit {m : MsgWord} {i l k j : Nat} {v : BitVec l} (hv : m.extractLsb' i l = v) (hj : j < l)
    (hk : 1 ≤ k) (hkj : k + i + j = 24) : (frame m)[k]? = some (if v.getLsbD j then .bit1 else .bit0) := by
  have hbit : v.getLsbD j = m.getLsbD (24 - k) := by
    rw [← hv, BitVec.getLsbD_extractLsb', show 24 - k = i + j by omega]
    simp [hj]
  rw [hbit, frame_messageBit m hk (by omega)]

/-- Settles O6: the three fields are the parts of the message word at bits 19, 4 and 0. -/
theorem frameLayout : Obligations.FrameLayout := by
  unfold Obligations.FrameLayout
  intro d g p
  refine ⟨frame_length _, frame_getElem? _ 0, fun k h1 h2 => ?_, fun k h1 h2 => ?_, fun k h1 h2 => ?_,
    frame_getElem? _ 25, frame_getElem? _ 26⟩
  · exact frame_fieldBit (deviceField_packMsg d g p) (by omega) (by omega) (by omega)
  · exact frame_fieldBit (groupField_packMsg d g p) (by omega) (by omega) (by omega)
  · exact frame_fieldBit (payloadField_packMsg d g p) (by omega) (by omega) (by omega)

theorem msbFirst_getElem? {w : Nat} (v : BitVec w) (j : Nat) :
    (msbFirst v)[j]? = if j < w then some (v.getLsbD (w - 1 - j)) else none := by
  unfold msbFirst
  split <;> simp_all

/-- Settles O7: the fields undo the packing, and the bit-units are compared index by index. -/
theorem messageWordLayout : Obligations.MessageWordLayout := by
  unfold Obligations.MessageWordLayout
  refine ⟨fun d g p => ⟨deviceField_packMsg d g p, groupField_packMsg d g p, payloadField_packMsg d g p⟩,
    fun m k h1 h2 => frame_messageBit m h1 h2, fun m => List.ext_getElem? fun j => ?_⟩
  rw [List.getElem?_take, List.getElem?_drop, List.getElem?_map, msbFirst_getElem?]
  split
  next hj => rw [frame_messageBit m (by omega) (by omega), show 24 - (1 + j) = 24 - 1 - j by omega]; rfl
  next => rfl

/-! ### The pseudo-command ENCODE -/

/-- The truncated fields, packed (R80, R89). -/
theorem truncatedMsg_eq_packMsg (d g p : Nat) :
    truncatedMsg d g p = packMsg (BitVec.ofNat 5 d) (BitVec.ofNat 15 g) (BitVec.ofNat 4 p) := by
  have hd : d % 32 < 32 := Nat.mod_lt _ (by decide)
  have hg : g % 32768 < 32768 := Nat.mod_lt _ (by decide)
  have hp : p % 16 < 16 := Nat.mod_lt _ (by decide)
  have hor : (d % 32) <<< 19 ||| (g % 32768) <<< 4 ||| p % 16 =
      d % 32 * 2 ^ 19 + g % 32768 * 2 ^ 4 + p % 16 := by
    rw [Nat.or_assoc, ← Nat.shiftLeft_add_eq_or_of_lt (i := 4) hp,
      ← Nat.shiftLeft_add_eq_or_of_lt (i := 19) (by rw [Nat.shiftLeft_eq]; omega), Nat.shiftLeft_eq, Nat.shiftLeft_eq]
    omega
  apply BitVec.eq_of_toNat_eq
  rw [truncatedMsg, hor, packMsg_toNat]
  simp only [BitVec.toNat_ofNat]
  omega

/-- The command word the host writes for ENCODE is the encoder's word (R82, R88). -/
theorem encodeWord_packMsg (d : BitVec 5) (g : BitVec 15) (p : BitVec 4) :
    encodeWord (packMsg d g p) = encode (.encode d g p) := rfl

/-- The truncation looks at each number modulo 2 to its field's width only (R89). -/
theorem truncatedMsg_congr {d g p d' g' p' : Nat} (hd : d % 32 = d' % 32) (hg : g % 32768 = g' % 32768)
    (hp : p % 16 = p' % 16) : truncatedMsg d g p = truncatedMsg d' g' p' := by
  rw [truncatedMsg, truncatedMsg, hd, hg, hp]

theorem expand_encode (d g p : Nat) :
    (HostText.encode d g p).expand = [cmdLine (encodeWord (truncatedMsg d g p))] := rfl

/-- Settles O8: equal truncated message words give equal lines, and the word is the encoder's for the packed fields. -/
theorem encodeTruncatesFields : Obligations.EncodeTruncatesFields := by
  unfold Obligations.EncodeTruncatesFields
  intro d g p
  simp only [expand_encode]
  refine ⟨rfl, fun m => rfl, ?_, ?_, ?_, ?_, ?_⟩
  · rw [truncatedMsg_congr (Nat.mod_mod d 32) (Nat.mod_mod g 32768) (Nat.mod_mod p 16)]
  · rw [truncatedMsg_congr (Nat.add_mod_right d 32) rfl rfl]
  · rw [truncatedMsg_congr rfl (Nat.add_mod_right g 32768) rfl]
  · rw [truncatedMsg_congr rfl rfl (Nat.add_mod_right p 16)]
  · rw [truncatedMsg_eq_packMsg, encodeWord_packMsg]
    exact decodeCommand_encode_encode _ _ _

end Sys2Proof
end

section
/-! PROOFS. POLL (R88), and the symbols executed on their own, in place on the sending side and out of place on both
(R79, R125, R126, R142, R143, R151). -/

namespace Sys2Proof.Machine

/-! ### POLL -/

theorem guardAccess_of_admitted {off : Nat} {r : Result} (h4 : off % 4 = 0) (hoff : off ≤ 0x1C) :
    guardAccess (.off off) 4 r = r := by
  have hw : (Place.off off).inWindow = true := inWindow_off_iff.mpr (by omega)
  have ha : accessAdmitted off 4 = true := accessAdmitted_iff.mpr ⟨rfl, h4⟩
  rw [guardAccess, if_pos hw]
  exact if_pos ha

/-- Settles O27: the access is admitted, and the line is dropped or kept by the comparison alone. -/
theorem pollReadsUntilWanted : Obligations.PollReadsUntilWanted := by
  unfold Obligations.PollReadsUntilWanted
  intro s off mask v rest h4 hoff hline
  rw [hostStep_poll hline, guardAccess_of_admitted h4 hoff]
  refine ⟨fun hv => ?_, fun hv => ?_⟩
  · rw [if_pos hv]
    rfl
  · rw [if_neg hv]
    rfl

/-! ### A symbol on the sending side -/

theorem exec_symbol_tx {s : State} (hw : s.wire = .tx) (y : Symbol) : exec y.instr s = txSymbol y s := by
  rw [exec_symbol, wireSymbol, hw]

theorem txSymbol_of_pulses {s : State} (hp : s.enc.phase = .pulses) (hk : s.enc.k.toNat ≤ 26) (y : Symbol) :
    txSymbol y s = .next (setEnc (sinkPut s y.event) s.enc.advance) := by
  rw [txSymbol, if_neg (not_not.mpr hp), if_pos hk]

theorem txSymbol_of_not_pulses {s : State} (hp : s.enc.phase ≠ .pulses) (y : Symbol) : txSymbol y s = .next s :=
  if_pos hp

/-- Before the last index only `enc_k` moves (R125). -/
theorem Enc.advance_of_lt {e : Enc} (hk : e.k.toNat < 26) : e.advance = { e with k := e.k + 1#6 } := by
  have hlast : e.k + 1#6 ≠ 27#6 := by
    intro h
    have hk' := congrArg BitVec.toNat h
    rw [toNat_add_one_of_le (by omega), BitVec.toNat_ofNat] at hk'
    omega
  exact if_neg hlast

/-- The last index ends the frame (R125). -/
theorem Enc.advance_of_last {e : Enc} (hk : e.k.toNat = 26) :
    e.advance = { e with k := 27#6, phase := .idle, done := true } := by
  have hk' : e.k = 26#6 := BitVec.eq_of_toNat_eq hk
  rw [Enc.advance, hk']
  rfl

/-- Settles O34: one `txSymbol` for the four symbols, and `Enc.advance` at and before the last index. -/
theorem symbolsSentByEncoder : Obligations.SymbolsSentByEncoder := by
  unfold Obligations.SymbolsSentByEncoder
  intro s hw hp hk
  have hsent (y : Symbol) : exec y.instr s = .next (setEnc (sinkPut s y.event) s.enc.advance) :=
    (exec_symbol_tx hw y).trans (txSymbol_of_pulses hp hk y)
  exact ⟨s.enc.advance, Enc.advance_of_lt, Enc.advance_of_last, hsent .sync, hsent .bit1, hsent .bit0, hsent .stop⟩

/-! ### A symbol on the receiving side -/

theorem exec_symbol_rx {s : State} (hw : s.wire = .rx) (y : Symbol) : exec y.instr s = rxSymbol y s := by
  rw [exec_symbol, wireSymbol, hw]

theorem rxSymbol_of_not_busy {s : State} (hb : s.dec.state.busy = false) (y : Symbol) : rxSymbol y s = .next s := by
  simp [rxSymbol, hb]

theorem rxSymbol_of_wait {s : State} (hh : srcHead s = .wait) (y : Symbol) : rxSymbol y s = .next s := by
  simp [rxSymbol, hh]

theorem rxSymbol_of_ended {s : State} (hb : s.dec.state.busy = true) (hh : srcHead s = .ended) (y : Symbol) :
    rxSymbol y s = .next (frameMismatch s) := by
  simp [rxSymbol, hb, hh]

theorem rxSymbol_of_not_candidate {s : State} {p : Pulse} {y : Symbol} (hb : s.dec.state.busy = true)
    (hh : srcHead s = .pulse p) (hy : y ∉ candidates s.dec.state) : rxSymbol y s = .next (frameMismatch s) := by
  simp [rxSymbol, hb, hh, hy]

/-- Settles O36: the cases of `rxSymbol` in which nothing is taken, and `txSymbol` outside `PULSES`. -/
theorem symbolOutOfPlace : Obligations.SymbolOutOfPlace := by
  unfold Obligations.SymbolOutOfPlace
  intro s y
  refine ⟨fun hw hb hy p q hq => ?_, fun hw hb hq => ⟨fun hopen => ?_, fun hclosed => ?_⟩, fun hw hb => ?_,
    fun hw hp => ?_⟩
  · exact (exec_symbol_rx hw y).trans (rxSymbol_of_not_candidate hb (srcHead_pulse.mpr ⟨q, hq⟩) hy)
  · exact (exec_symbol_rx hw y).trans (rxSymbol_of_wait (srcHead_wait.mpr ⟨hq, hopen⟩) y)
  · exact (exec_symbol_rx hw y).trans (rxSymbol_of_ended hb (srcHead_ended.mpr ⟨hq, hclosed⟩) y)
  · exact (exec_symbol_rx hw y).trans (rxSymbol_of_not_busy hb y)
  · exact (exec_symbol_tx hw y).trans (txSymbol_of_not_pulses hp y)

end Sys2Proof.Machine
end

section
/-! PROOFS. The matcher: its required properties (R101 to R103), the default matcher's windows and which pulses they
share (R104, R107 to R110), the classification (R105, R106), and the decode of an exact frame (R153, R155). -/

namespace Sys2Proof

open Machine

/-! ### The required properties -/

theorem nominalAcceptance_constrained (raw : Matcher) : NominalAcceptance (constrained raw) :=
  fun _ => if_pos rfl

/-- P1 does not force what P2 forbids: the nominal pulses of the two bits differ. -/
theorem bit0_nominalPulse_ne_bit1 : Symbol.bit0.nominalPulse ≠ Symbol.bit1.nominalPulse := by decide

theorem bitDiscrimination_constrained (raw : Matcher) : BitDiscrimination (constrained raw) := by
  unfold BitDiscrimination constrained
  rw [if_neg bit0_nominalPulse_ne_bit1, if_pos ⟨rfl, rfl⟩]

/-- Where the construction overrides a matcher, P1 and P2 already give the same verdict. -/
theorem constrained_eq_self {M : Matcher} (h1 : NominalAcceptance M) (h2 : BitDiscrimination M) :
    constrained M = M := by
  funext p y
  unfold constrained
  split
  next hp => rw [hp, h1 y]
  next =>
    split
    next hb => rw [hb.1, hb.2, h2]
    next => rfl

/-- Settles O10: the construction has both properties for every raw matcher, and it keeps a matcher that has them. -/
theorem matcherIsAnyWithRequiredProperties : Obligations.MatcherIsAnyWithRequiredProperties := by
  unfold Obligations.MatcherIsAnyWithRequiredProperties
  refine ⟨nominalAcceptance_constrained _, bitDiscrimination_constrained _, fun M => ⟨fun ⟨h1, h2⟩ => ?_, fun h => ?_⟩⟩
  · exact constrained_eq_self h1 h2
  · rw [← h]
    exact ⟨nominalAcceptance_constrained M, bitDiscrimination_constrained M⟩

/-! ### The windows of the default matcher -/

/-- A duration `d` lies in the window of the nominal duration `n` at tolerance `T` (R104). -/
def InTolerance (T n d : Nat) : Prop := windowLo T n ≤ d ∧ d ≤ windowHi T n

theorem windowLo_anti {T U : Nat} (hTU : T ≤ U) (n : Nat) : windowLo U n ≤ windowLo T n :=
  Nat.div_le_div_right (Nat.mul_le_mul_right n (Nat.sub_le_sub_left hTU 100))

theorem windowHi_mono {T U : Nat} (hTU : T ≤ U) (n : Nat) : windowHi T n ≤ windowHi U n :=
  Nat.div_le_div_right (Nat.mul_le_mul_right n (Nat.add_le_add_left hTU 100))

/-- Windows grow with the tolerance. -/
theorem inTolerance_mono {T U n d : Nat} (hTU : T ≤ U) (h : InTolerance T n d) : InTolerance U n d :=
  ⟨(windowLo_anti hTU n).trans h.1, h.2.trans (windowHi_mono hTU n)⟩

/-- At tolerance 0 a window is its nominal duration alone. -/
theorem inTolerance_zero_iff {n d : Nat} : InTolerance 0 n d ↔ d = n := by
  unfold InTolerance windowLo windowHi
  omega

/-- At every tolerance a window holds its nominal duration (R108). -/
theorem inTolerance_self (T n : Nat) : InTolerance T n n :=
  inTolerance_mono T.zero_le (inTolerance_zero_iff.mpr rfl)

/-- The default matcher checks each duration against its own window (R104). -/
theorem defaultMatch_iff {T : Nat} {p : Pulse} {y : Symbol} :
    defaultMatch T p y = true ↔
      InTolerance T y.nominal.h.toNat p.h.toNat ∧ InTolerance T y.nominal.l.toNat p.l.toNat := by
  simp [defaultMatch, InTolerance, and_assoc]

theorem defaultMatch_mono {T U : Nat} {p : Pulse} {y : Symbol} (hTU : T ≤ U) (h : defaultMatch T p y = true) :
    defaultMatch U p y = true := by
  rw [defaultMatch_iff] at h ⊢
  exact ⟨inTolerance_mono hTU h.1, inTolerance_mono hTU h.2⟩

/-- What fails at tolerance `t`, holds at `t + 1` and is kept as the tolerance grows, holds from `t + 1` on. -/
theorem iff_le_of_threshold {P : Nat → Prop} (hmono : ∀ {T U}, T ≤ U → P T → P U) {t : Nat} (hbelow : ¬ P t)
    (hat : P (t + 1)) (T : Nat) : P T ↔ t + 1 ≤ T := by
  constructor
  · intro h
    by_contra hT
    exact hbelow (hmono (by omega) h)
  · exact fun hT => hmono hT hat

/-- A pulse's matching a symbol is decided by the two tolerances at the threshold. -/
theorem defaultMatch_iff_of_threshold {p : Pulse} {y : Symbol} (t : Nat) (hbelow : ¬ defaultMatch t p y = true)
    (hat : defaultMatch (t + 1) p y = true) (T : Nat) : defaultMatch T p y = true ↔ t + 1 ≤ T :=
  iff_le_of_threshold (P := fun T => defaultMatch T p y = true) defaultMatch_mono hbelow hat T

/-- What does not match at tolerance 100 matches at no tolerance. -/
theorem not_defaultMatch_of_max {p : Pulse} {y : Symbol} (hmax : ¬ defaultMatch 100 p y = true) {T : Nat}
    (hT : T ≤ 100) : ¬ defaultMatch T p y = true :=
  fun h => hmax (defaultMatch_mono hT h)

theorem nominalPulse_h_toNat (y : Symbol) : y.nominalPulse.h.toNat = y.nominal.h.toNat := by cases y <;> rfl

theorem nominalPulse_l_toNat (y : Symbol) : y.nominalPulse.l.toNat = y.nominal.l.toNat := by cases y <;> rfl

/-- A pulse is a nominal one when its durations are the nominal ones as numbers. -/
theorem eq_nominalPulse_iff {p : Pulse} {y : Symbol} :
    p = y.nominalPulse ↔ p.h.toNat = y.nominal.h.toNat ∧ p.l.toNat = y.nominal.l.toNat := by
  rw [← nominalPulse_h_toNat, ← nominalPulse_l_toNat, BitVec.toNat_inj, BitVec.toNat_inj]
  exact (Pulse.mk.injEq p.h p.l _ _).to_iff

theorem defaultMatch_nominal_iff {T : Nat} {y z : Symbol} :
    defaultMatch T y.nominalPulse z = true ↔
      InTolerance T z.nominal.h.toNat y.nominal.h.toNat ∧ InTolerance T z.nominal.l.toNat y.nominal.l.toNat := by
  rw [defaultMatch_iff, nominalPulse_h_toNat, nominalPulse_l_toNat]

theorem nominalAcceptance_defaultMatch (T : Nat) : NominalAcceptance (defaultMatch T) :=
  fun _ => defaultMatch_nominal_iff.mpr ⟨inTolerance_self _ _, inTolerance_self _ _⟩

theorem windowHi_510_le {T : Nat} (hT : T ≤ 100) : windowHi T 510 ≤ 1020 := by
  unfold windowHi
  omega

/-- BIT0's nominal low duration, 1300, is above BIT1's low window at every tolerance (R108). -/
theorem bitDiscrimination_defaultMatch {T : Nat} (hT : T ≤ 100) : BitDiscrimination (defaultMatch T) := by
  unfold BitDiscrimination
  rw [Bool.eq_false_iff, Ne, defaultMatch_nominal_iff]
  rintro ⟨-, -, hlow⟩
  exact absurd (hlow.trans (windowHi_510_le hT)) (by decide)

/-- Settles O11: every window holds its own nominal duration, and at tolerance 0 nothing else. -/
theorem defaultMatcherHasRequiredProperties : Obligations.DefaultMatcherHasRequiredProperties := by
  unfold Obligations.DefaultMatcherHasRequiredProperties
  refine ⟨fun T hT => ?_, fun p y => ?_⟩
  · exact ⟨nominalAcceptance_defaultMatch T, bitDiscrimination_defaultMatch hT, inTolerance_self T, windowHi_510_le hT⟩
  · rw [defaultMatch_iff, inTolerance_zero_iff, inTolerance_zero_iff, eq_nominalPulse_iff]

/-- Settles O12: both windows of each symbol, evaluated. -/
theorem defaultWindows : Obligations.DefaultWindows := by
  unfold Obligations.DefaultWindows
  intro p
  simp only [defaultMatch_iff, InTolerance, and_assoc]
  exact ⟨Iff.rfl, Iff.rfl, Iff.rfl, Iff.rfl⟩

/-! ### Pulses that match both bits -/

/-- Windows of two durations that overlap still do at a higher tolerance. -/
theorem windows_overlap_mono {T U a b : Nat} (hTU : T ≤ U) (h : windowLo T a ≤ windowHi T b) :
    windowLo U a ≤ windowHi U b :=
  calc windowLo U a ≤ windowLo T a := windowLo_anti hTU a
    _ ≤ windowHi T b := h
    _ ≤ windowHi U b := windowHi_mono hTU b

theorem bit_high_windows_overlap_iff (T : Nat) : windowLo T 1240 ≤ windowHi T 470 ↔ 46 ≤ T :=
  iff_le_of_threshold windows_overlap_mono (t := 45) (by decide) (by decide) T

theorem bit_low_windows_overlap_iff (T : Nat) : windowLo T 1300 ≤ windowHi T 510 ↔ 44 ≤ T :=
  iff_le_of_threshold windows_overlap_mono (t := 43) (by decide) (by decide) T

/-- A pulse that matches both bits lies in both high windows, which then overlap. -/
theorem le_tolerance_of_matches_both_bits {T : Nat} {p : Pulse} (h1 : defaultMatch T p .bit1 = true)
    (h0 : defaultMatch T p .bit0 = true) : 46 ≤ T := by
  obtain ⟨⟨hlo, -⟩, -⟩ := defaultMatch_iff.mp h1
  obtain ⟨⟨-, hhi⟩, -⟩ := defaultMatch_iff.mp h0
  exact (bit_high_windows_overlap_iff T).mp (hlo.trans hhi)

/-- A pulse in both bits' windows from tolerance 46 on (R109). -/
def ambiguousPulse : Pulse := ⟨680#32, 720#32⟩

theorem ambiguousPulse_matches_at_46 :
    defaultMatch 46 ambiguousPulse .bit1 = true ∧ defaultMatch 46 ambiguousPulse .bit0 = true := by decide

theorem exists_matches_both_bits_iff {T : Nat} :
    (∃ p, defaultMatch T p .bit1 = true ∧ defaultMatch T p .bit0 = true) ↔ 46 ≤ T := by
  constructor
  · rintro ⟨p, h1, h0⟩
    exact le_tolerance_of_matches_both_bits h1 h0
  · intro hT
    obtain ⟨h1, h0⟩ := ambiguousPulse_matches_at_46
    exact ⟨ambiguousPulse, defaultMatch_mono hT h1, defaultMatch_mono hT h0⟩

/-- Of two candidates the first has precedence. -/
theorem find?_pair {α : Type} (f : α → Bool) (a b : α) :
    [a, b].find? f = if f a then some a else if f b then some b else none := by
  rw [List.find?_cons, List.find?_singleton]
  cases f a <;> rfl

/-- The order of two candidates matters only where both match. -/
theorem find?_pair_swap {α : Type} {f : α → Bool} {a b : α} (h : ¬ (f a = true ∧ f b = true)) :
    [a, b].find? f = [b, a].find? f := by
  rw [find?_pair, find?_pair]
  split
  next ha => rw [if_neg fun hb => h ⟨ha, hb⟩]
  next => rfl

/-- Settles O13: the windows overlap from their thresholds on, and one pulse serves every tolerance from 46 on. -/
theorem defaultBitAmbiguityThreshold : Obligations.DefaultBitAmbiguityThreshold := by
  unfold Obligations.DefaultBitAmbiguityThreshold
  intro T _
  refine ⟨exists_matches_both_bits_iff, bit_high_windows_overlap_iff T, bit_low_windows_overlap_iff T, rfl, rfl,
    fun hT p => find?_pair_swap fun ⟨h1, h0⟩ => ?_⟩
  have := le_tolerance_of_matches_both_bits h1 h0
  omega

/-! ### Classification -/

theorem classify_of_one_candidate {M : Matcher} {p : Pulse} {st : DecState} {y : Symbol} (h : candidates st = [y]) :
    classify M st p = if M p y then some y else none := by
  rw [classify, h, List.find?_singleton]

theorem classify_of_bit_candidates {M : Matcher} {p : Pulse} {st : DecState} (h : candidates st = [.bit1, .bit0]) :
    classify M st p = if M p .bit1 then some .bit1 else if M p .bit0 then some .bit0 else none := by
  rw [classify, h, find?_pair]

theorem classify_of_no_candidate {M : Matcher} {p : Pulse} {st : DecState} (h : candidates st = []) :
    classify M st p = none := by
  rw [classify, h, List.find?_nil]

/-- Settles O15: state by state, from its list of candidates. -/
theorem classifyFirstCandidate : Obligations.ClassifyFirstCandidate := by
  unfold Obligations.ClassifyFirstCandidate
  intro M p
  refine ⟨classify_of_one_candidate rfl, fun st hst => ?_, fun st hst => ?_, fun st hst => ?_⟩
  · obtain rfl | rfl | rfl := hst <;> exact classify_of_bit_candidates rfl
  · obtain rfl | rfl := hst <;> exact classify_of_one_candidate rfl
  · obtain rfl | rfl | rfl := hst <;> exact classify_of_no_candidate rfl

/-- The two bits are the only two symbols ever tried at the same position (R102, R105). -/
theorem bits_of_mem_candidates {st : DecState} {y z : Symbol} (hy : y ∈ candidates st) (hz : z ∈ candidates st)
    (hne : y ≠ z) : (y = .bit1 ∧ z = .bit0) ∨ (y = .bit0 ∧ z = .bit1) := by
  cases st with
  | idle | accepted | rejected => cases hy
  | awaitSync | awaitStop1 | awaitStop2 =>
    exact absurd ((List.mem_singleton.mp hy).trans (List.mem_singleton.mp hz).symm) hne
  | readDevice | readGroup | readPayload =>
    obtain rfl | rfl : y = .bit1 ∨ y = .bit0 := by simpa [candidates] using hy
    all_goals simpa [candidates, hne.symm] using hz

/-! ### Nominal pulses that match another symbol -/

theorem nominal_matches_sync_iff {T : Nat} (hT : T ≤ 100) {y : Symbol} (hy : y ≠ .sync) :
    defaultMatch T y.nominalPulse .sync = true ↔ (y = .stop ∧ 97 ≤ T) ∨ (y = .bit0 ∧ 90 ≤ T) := by
  cases y with
  | sync => contradiction
  | bit1 => simpa using not_defaultMatch_of_max (by decide) hT
  | bit0 => simpa using defaultMatch_iff_of_threshold 89 (by decide) (by decide) T
  | stop => simpa using defaultMatch_iff_of_threshold 96 (by decide) (by decide) T

theorem nominal_matches_bit1_iff {T : Nat} (hT : T ≤ 100) {y : Symbol} (hy : y ≠ .bit1) :
    defaultMatch T y.nominalPulse .bit1 = true ↔ y = .stop ∧ 64 ≤ T := by
  cases y with
  | bit1 => contradiction
  | sync | bit0 => simpa using not_defaultMatch_of_max (by decide) hT
  | stop => simpa using defaultMatch_iff_of_threshold 63 (by decide) (by decide) T

theorem nominal_matches_bit0_iff {T : Nat} (hT : T ≤ 100) {y : Symbol} (hy : y ≠ .bit0) :
    defaultMatch T y.nominalPulse .bit0 = true ↔ y = .stop ∧ 66 ≤ T := by
  cases y with
  | bit0 => contradiction
  | sync | bit1 => simpa using not_defaultMatch_of_max (by decide) hT
  | stop => simpa using defaultMatch_iff_of_threshold 65 (by decide) (by decide) T

theorem nominal_not_matches_stop {T : Nat} (hT : T ≤ 100) {y : Symbol} (hy : y ≠ .stop) :
    ¬ defaultMatch T y.nominalPulse .stop = true := by
  cases y with
  | stop => contradiction
  | sync | bit1 | bit0 => exact not_defaultMatch_of_max (by decide) hT

/-- The pairs of R110 and their thresholds. -/
theorem nominal_matches_other_iff {T : Nat} (hT : T ≤ 100) {y z : Symbol} (hne : y ≠ z) :
    defaultMatch T y.nominalPulse z = true ↔
      (y = .stop ∧ z = .bit1 ∧ 64 ≤ T) ∨ (y = .stop ∧ z = .bit0 ∧ 66 ≤ T) ∨ (y = .stop ∧ z = .sync ∧ 97 ≤ T) ∨
      (y = .bit0 ∧ z = .sync ∧ 90 ≤ T) := by
  cases z with
  | sync => simp [nominal_matches_sync_iff hT hne]
  | bit1 => simp [nominal_matches_bit1_iff hT hne]
  | bit0 => simp [nominal_matches_bit0_iff hT hne]
  | stop => simp [nominal_not_matches_stop hT hne]

/-- The two bits, the only symbols that share a candidate list, never match each other's nominal pulse. -/
theorem not_share_candidates_of_matches_other {T : Nat} (hT : T ≤ 100) {y z : Symbol} (hne : y ≠ z)
    (h : defaultMatch T y.nominalPulse z = true) (st : DecState) : ¬ (y ∈ candidates st ∧ z ∈ candidates st) := by
  rintro ⟨hy, hz⟩
  obtain ⟨rfl, rfl⟩ | ⟨rfl, rfl⟩ := bits_of_mem_candidates hy hz hne
  · simp [nominal_matches_bit0_iff hT hne] at h
  · simp [nominal_matches_bit1_iff hT hne] at h

/-! ### The decode of an exact frame -/

/-- The pulses of an exact frame, and what may follow them (R155). -/
def exactTrain (m : MsgWord) (tail : List Pulse) : List Pulse := (frame m).map Symbol.nominalPulse ++ tail

theorem exactTrain_getElem? {m : MsgWord} {k : Nat} {y : Symbol} (tail : List Pulse) (h : symbolAt m k = some y) :
    (exactTrain m tail)[k]? = some y.nominalPulse := by
  have hk : k ≤ 26 := symbolAt_isSome.mp ⟨y, h⟩
  rw [exactTrain, List.getElem?_append_left (by rw [List.length_map, frame_length]; omega), List.getElem?_map,
    frame_getElem?, h]
  rfl

section Decode

variable {M : Matcher} {m : MsgWord} (tail : List Pulse)

/-- A symbol that is the only candidate at its index is taken (P1). -/
theorem takeAt_exactTrain_one (h1 : NominalAcceptance M) {k : Nat} {y : Symbol} (h : symbolAt m k = some y) :
    takeAt M (exactTrain m tail) k [y] = some y := by
  rw [takeAt, exactTrain_getElem? tail h]
  exact List.find?_singleton.trans (if_pos (h1 y))

/-- A bit-unit is taken as the bit it carries: BIT1 by P1, and BIT0 since P2 keeps BIT1 from matching first. -/
theorem takeAt_exactTrain_bit (h1 : NominalAcceptance M) (h2 : BitDiscrimination M) {k : Nat} (hlo : 1 ≤ k)
    (hhi : k ≤ 24) :
    takeAt M (exactTrain m tail) k [.bit1, .bit0] = some (bitSym (m.getLsbD (24 - k))) := by
  rw [takeAt, exactTrain_getElem? tail (symbolAt_bit hlo hhi)]
  refine (find?_pair _ _ _).trans ?_
  cases m.getLsbD (24 - k) with
  | true => exact if_pos (h1 .bit1)
  | false => exact (if_neg (Bool.eq_false_iff.mp h2)).trans (if_pos (h1 .bit0))

end Decode

/-- `readField` reads a number whose bits the pulses carry, most significant first. -/
theorem readField_of_bits {M : Matcher} {L : List Pulse} {x w n v : Nat}
    (hbits : ∀ k, n ≤ k → k < n + w → takeAt M L k [.bit1, .bit0] = some (bitSym (x.testBit (n + w - 1 - k)))) :
    readField M L w n v = (some (v * 2 ^ w + x % 2 ^ w), n + w) := by
  induction w generalizing n v with
  | zero => simp [readField, Nat.mod_one]
  | succ w ih =>
    have hfirst := hbits n le_rfl (by omega)
    rw [show n + (w + 1) - 1 - n = w by omega] at hfirst
    have hrest : ∀ k, n + 1 ≤ k → k < n + 1 + w →
        takeAt M L k [.bit1, .bit0] = some (bitSym (x.testBit (n + 1 + w - 1 - k))) := by
      intro k hlo hhi
      rw [hbits k (by omega) (by omega), show n + (w + 1) - 1 - k = n + 1 + w - 1 - k by omega]
    have hdigit : (if bitSym (x.testBit w) = .bit1 then 1 else 0) = (x.testBit w).toNat := by
      cases x.testBit w <;> rfl
    simp only [readField, hfirst, ih hrest, hdigit, Nat.toNat_testBit, Nat.mod_pow_succ]
    refine Prod.ext (congrArg some ?_) (by omega)
    ring

/-- From an exact frame `readField` reads the field of the message word that stands at the position (R76, R80). -/
theorem readField_exactTrain {M : Matcher} (h1 : NominalAcceptance M) (h2 : BitDiscrimination M) (m : MsgWord)
    (tail : List Pulse) {w n : Nat} (hlo : 1 ≤ n) (hhi : n + w ≤ 25) :
    readField M (exactTrain m tail) w n 0 = (some ((m.toNat >>> (25 - n - w)) % 2 ^ w), n + w) := by
  have hread := readField_of_bits (M := M) (L := exactTrain m tail) (x := m.toNat >>> (25 - n - w)) (w := w) (n := n)
    (v := 0) fun k hk1 hk2 => by
      rw [takeAt_exactTrain_bit tail h1 h2 (by omega) (by omega), Nat.testBit_shiftRight,
        show 25 - n - w + (n + w - 1 - k) = 24 - k by omega]
      rfl
  rw [hread, Nat.zero_mul, Nat.zero_add]

/-- The three fields of a message word, put back together (R80, R86). -/
theorem ofNat_fields (m : MsgWord) :
    BitVec.ofNat 24 ((m.toNat >>> 19 % 2 ^ 5) <<< 19 ||| (m.toNat >>> 4 % 2 ^ 15) <<< 4 ||| m.toNat >>> 0 % 2 ^ 4) =
      m :=
  (truncatedMsg_eq_packMsg (m.toNat >>> 19) (m.toNat >>> 4) (m.toNat >>> 0)).trans (packMsg_fields m)

/-- The round trip (R155): every matcher with P1 and P2 decodes an exact frame to its message, whatever follows. -/
theorem decodeFn_exactTrain {M : Matcher} (h1 : NominalAcceptance M) (h2 : BitDiscrimination M) (m : MsgWord)
    (tail : List Pulse) : decodeFn M (exactTrain m tail) = (some m, 27) := by
  have hsync : takeAt M (exactTrain m tail) 0 [.sync] = some .sync := takeAt_exactTrain_one tail h1 rfl
  have hdevice : readField M (exactTrain m tail) 5 1 0 = (some (m.toNat >>> 19 % 2 ^ 5), 6) :=
    readField_exactTrain h1 h2 m tail (by decide) (by decide)
  have hgroup : readField M (exactTrain m tail) 15 6 0 = (some (m.toNat >>> 4 % 2 ^ 15), 21) :=
    readField_exactTrain h1 h2 m tail (by decide) (by decide)
  have hpayload : readField M (exactTrain m tail) 4 21 0 = (some (m.toNat >>> 0 % 2 ^ 4), 25) :=
    readField_exactTrain h1 h2 m tail (by decide) (by decide)
  have hstop1 : takeAt M (exactTrain m tail) 25 [.stop] = some .stop := takeAt_exactTrain_one tail h1 rfl
  have hstop2 : takeAt M (exactTrain m tail) (25 + 1) [.stop] = some .stop := takeAt_exactTrain_one tail h1 rfl
  simp only [decodeFn, hsync, hdevice, hgroup, hpayload, hstop1, hstop2, ofNat_fields]

/-- Settles O14: the thresholds target by target; the bits alone share a list; and exact frames by P1 and P2. -/
theorem defaultCrossMatches : Obligations.DefaultCrossMatches := by
  unfold Obligations.DefaultCrossMatches
  intro T hT
  refine ⟨fun y z hne => nominal_matches_other_iff hT hne,
    fun y z hne h st => not_share_candidates_of_matches_other hT hne h st, fun m => ?_⟩
  have h := decodeFn_exactTrain (nominalAcceptance_defaultMatch T) (bitDiscrimination_defaultMatch hT) m []
  rwa [exactTrain, List.append_nil] at h

end Sys2Proof
end

section
/-! PROOFS. The encoder: the command that starts a frame (R120), the carrier and pulse steps (R124, R125), the fetch of
the instruction a step executes, and one whole frame, in any interleaving and in its shortest schedule (R126 to R129). -/

namespace Sys2Proof.Machine

/-! ### The ENCODE command -/

theorem performCommand_of_ok {w : Word} {i : Instr} (h : decodeCommand w = .ok i) (s : State) :
    performCommand w s = exec i s := by
  rw [performCommand, h]

theorem exec_encode_of_idle {s : State} (hp : s.enc.phase = .idle) (d : BitVec 5) (g : BitVec 15) (p : BitVec 4) :
    exec (.encode d g p) s = .next (startEncode s (packMsg d g p)) :=
  if_neg (not_not.mpr hp)

theorem exec_encode_of_not_idle {s : State} (hp : s.enc.phase ≠ .idle) (d : BitVec 5) (g : BitVec 15)
    (p : BitVec 4) : exec (.encode d g p) s = .next (raiseEncDrop s) :=
  if_pos hp

/-- A word with 0x10 in bits 31:24 is an ENCODE (R82). -/
theorem decodeCommand_of_high_byte {w : Word} (h : w.extractLsb' 24 8 = 0x10#8) :
    decodeCommand w =
      .ok (.encode (deviceField (argField w)) (groupField (argField w)) (payloadField (argField w))) := by
  have hbyte : w.toNat / 2 ^ 24 % 2 ^ 8 = 16 := by rw [← extract_toNat_div, h]; rfl
  apply decodeCommand_of_op_one <;> apply BitVec.eq_of_toNat_eq
  · rw [opField_toNat, BitVec.toNat_ofNat]
    omega
  · rw [rsvField_toNat, BitVec.toNat_ofNat]
    omega

theorem performCommand_encode_of_idle {w : Word} {s : State} (hw : w.extractLsb' 24 8 = 0x10#8)
    (hp : s.enc.phase = .idle) : performCommand w s = .next (startEncode s (argField w)) := by
  rw [performCommand_of_ok (decodeCommand_of_high_byte hw), exec_encode_of_idle hp, packMsg_fields]

theorem performCommand_encode_of_not_idle {w : Word} {s : State} (hw : w.extractLsb' 24 8 = 0x10#8)
    (hp : s.enc.phase ≠ .idle) : performCommand w s = .next (raiseEncDrop s) := by
  rw [performCommand_of_ok (decodeCommand_of_high_byte hw), exec_encode_of_not_idle hp]

theorem encStatusReg_startEncode (s : State) (m : MsgWord) : encStatusReg (startEncode s m) = 0x00000100#32 :=
  BitVec.eq_of_toNat_eq (by simp [encStatusReg_toNat, Enc.busy, Enc.reset])

/-- Settles O17: the two branches of ENCODE, reached by the instruction and by its word alike. -/
theorem encodeCommand : Obligations.EncodeCommand := by
  unfold Obligations.EncodeCommand
  intro s w d g p
  refine ⟨fun hp => exec_encode_of_idle hp d g p, fun hp => exec_encode_of_not_idle hp d g p, fun hw hp => ?_,
    fun hw hp => ?_⟩
  · exact ⟨_, performCommand_encode_of_idle hw hp, rfl, encStatusReg_startEncode s _⟩
  · obtain ⟨-, hdrop, -⟩ := errReg_fields (raiseEncDrop s)
    exact ⟨_, performCommand_encode_of_not_idle hw hp, rfl, hdrop⟩

/-! ### The instruction a step executes -/

/-- The host's write of a command word to `CMD` runs the instruction the word decodes to (R174). -/
theorem hostStep_command {s : State} {w : Word} {i : Instr} {rest : List HostLine}
    (hline : s.hostProg = .write (.off 0x00) 4 w :: rest) (hw : decodeCommand w = .ok i) :
    hostStep s = exec i (setHostProg s rest) := by
  rw [hostStep_write hline, guardAccess_of_admitted rfl (by decide)]
  exact performCommand_of_ok hw _

/-- ENC's turn runs the symbol at `enc_k` of the frame (R125). -/
theorem encStep_fetch {s : State} {y : Symbol} (hp : s.enc.phase = .pulses)
    (hy : symbolAt s.enc.msg s.enc.k.toNat = some y) : encStep true s = execOnWire .tx y.instr s := by
  simp [encStep, hp, hy]

/-- DEC's turn runs the symbol its head pulse is classified as (R141). -/
theorem decStep_fetch {M : Matcher} {s : State} {p : Pulse} {q : List Pulse} {y : Symbol}
    (hb : s.dec.state.busy = true) (hq : s.srcQueue = p :: q) (hy : classify M s.dec.state p = some y) :
    decStep M s = execOnWire .rx y.instr s := by
  simp [decStep, hb, srcHead_pulse.mpr ⟨q, hq⟩, hy]

/-- Settles O28: each clause is the agent's own fetch, in the state from which its turn has been removed. -/
theorem stepRunsDecodedInstruction : Obligations.StepRunsDecodedInstruction := by
  unfold Obligations.StepRunsDecodedInstruction
  refine ⟨fun s w i ts rest hts hline hw => ?_, fun s y ts hts hp hy => ?_, fun s p q y ts hts hb hq hy => ?_⟩
  · exact (stepWith_cons hts).trans (hostStep_command (s := setSchedule s ts) hline hw)
  · exact (stepWith_cons hts).trans (encStep_fetch (s := setSchedule s ts) hp hy)
  · exact (stepWith_cons hts).trans (decStep_fetch (s := setSchedule s ts) hb hq hy)

/-! ### The carrier step and the pulse step -/

/-- Settles O29: `emitCarrier` when the sink accepts, and the stall. -/
theorem carrierStep : Obligations.CarrierStep := by
  unfold Obligations.CarrierStep
  intro s hp
  obtain ⟨-, -, -, -, hcarrier, -⟩ := encStatusReg_fields (emitCarrier s)
  exact ⟨⟨_, encStep_carrier hp, rfl, hcarrier⟩, encStep_stall s⟩

/-- Settles O30: the frame's symbol at `enc_k` is sent, and `Enc.advance` moves on before and at the last index. -/
theorem pulseStep : Obligations.PulseStep := by
  unfold Obligations.PulseStep
  intro s hp hk
  obtain ⟨y, hy⟩ := (symbolAt_isSome (m := s.enc.msg)).mpr hk
  have hstep := encStep_pulses hp hy
  refine ⟨y, (frame_getElem? _ _).trans hy, fun hlt => ?_, fun hlast => ?_, fun t ht => ?_⟩
  · rw [hstep, Enc.advance_of_lt hlt]
    rfl
  · rw [hstep, Enc.advance_of_last hlast]
    rfl
  · obtain rfl := Host.Outcome.next.inj (hstep.symm.trans ht)
    obtain ⟨hemitted, -⟩ := encStatusReg_fields (setEnc (sinkPut s y.event) s.enc.advance)
    rw [regValue_encStatus, hemitted, setEnc_enc, Enc.advance_k]

/-- Settles O50: each unit's step has been shown isolated. -/
theorem unitsIsolated : Obligations.UnitsIsolated := by
  unfold Obligations.UnitsIsolated
  exact ⟨fun _ _ _ => encStep_isolated, fun _ _ _ => decStep_isolated⟩

/-! ### The encoder in the course of a frame -/

/-- ENC's elements when the sink has accepted `j` of the 28 offers of the frame of `m` (R26, R120, R124, R125). -/
def Enc.afterOffers (m : MsgWord) : Nat → Enc
  | 0 => { phase := .carrier, k := 0#6, msg := m, carrier := false, done := false }
  | k + 1 =>
    if k ≤ 26 then { phase := .pulses, k := BitVec.ofNat 6 k, msg := m, carrier := true, done := false }
    else { phase := .idle, k := 27#6, msg := m, carrier := true, done := true }

theorem Enc.afterOffers_pulses {k : Nat} (hk : k ≤ 26) (m : MsgWord) :
    Enc.afterOffers m (k + 1) =
      { phase := .pulses, k := BitVec.ofNat 6 k, msg := m, carrier := true, done := false } :=
  if_pos hk

theorem Enc.afterOffers_last (m : MsgWord) :
    Enc.afterOffers m 28 = { phase := .idle, k := 27#6, msg := m, carrier := true, done := true } := rfl

/-- Before the 28th acceptance ENC is busy and not done (R128). -/
theorem Enc.afterOffers_busy {j : Nat} (hj : j ≤ 27) (m : MsgWord) :
    (Enc.afterOffers m j).phase ≠ .idle ∧ (Enc.afterOffers m j).done = false := by
  cases j with
  | zero => exact ⟨by simp [Enc.afterOffers], rfl⟩
  | succ k => rw [Enc.afterOffers_pulses (by omega)]; exact ⟨by simp, rfl⟩

theorem frameIndex_toNat {k : Nat} (hk : k ≤ 26) : (BitVec.ofNat 6 k).toNat = k := Nat.mod_eq_of_lt (by omega)

theorem Enc.advance_afterOffers {k : Nat} (hk : k ≤ 26) (m : MsgWord) :
    (Enc.afterOffers m (k + 1)).advance = Enc.afterOffers m (k + 2) := by
  rw [Enc.afterOffers_pulses hk]
  obtain hlt | rfl := Nat.lt_or_eq_of_le hk
  · rw [Enc.advance_of_lt (by simpa only [frameIndex_toNat hk] using hlt), Enc.afterOffers_pulses (by omega),
      BitVec.ofNat_add]
  · rfl

/-- The next offer accepted in a frame: the next of the frame's events goes to the sink (R124, R125, R127). -/
theorem encStep_offer {m : MsgWord} {j : Nat} {ev : SinkEvent} {s : State} (henc : s.enc = Enc.afterOffers m j)
    (hev : (frameEvents m)[j]? = some ev) :
    encStep true s = .next (setEnc (sinkPut s ev) (Enc.afterOffers m (j + 1))) := by
  cases j with
  | zero =>
    obtain rfl : SinkEvent.carrier Config.carrierHz = ev := Option.some.inj hev
    rw [encStep_carrier (by rw [henc]; rfl), emitCarrier, henc]
    rfl
  | succ k =>
    obtain ⟨y, hy, rfl⟩ : ∃ y, symbolAt m k = some y ∧ y.event = ev := by
      simpa [frameEvents, frame_getElem?] using hev
    have hk : k ≤ 26 := symbolAt_isSome.mp ⟨y, hy⟩
    have hpulses := henc.trans (Enc.afterOffers_pulses hk m)
    rw [encStep_pulses (y := y) (by rw [hpulses]) (by rw [hpulses, frameIndex_toNat hk]; exact hy), henc,
      Enc.advance_afterOffers hk]

/-- The host's write of `ENCODE.W m` while ENC is `IDLE` starts the frame of `m` (R88, R120). -/
theorem hostStep_encodeWord {s : State} {m : MsgWord} {hp : List HostLine} (hidle : s.enc.phase = .idle)
    (hline : s.hostProg = .write (.off 0x00) 4 (encodeWord m) :: hp) :
    hostStep s = .next (startEncode (setHostProg s hp) m) := by
  have hword : encodeWord m = encode (.encode (deviceField m) (groupField m) (payloadField m)) := by
    rw [← encodeWord_packMsg, packMsg_fields]
  rw [hword] at hline
  rw [hostStep_command hline (decodeCommand_encode_encode _ _ _),
    exec_encode_of_idle (s := setHostProg s hp) hidle, packMsg_fields]

theorem stepWith_encodeWord {M : Matcher} {s : State} {m : MsgWord} {hp : List HostLine} {ts : List Turn}
    (hidle : s.enc.phase = .idle) (hline : s.hostProg = .write (.off 0x00) 4 (encodeWord m) :: hp)
    (hts : s.schedule = .host :: ts) :
    stepWith M s = .next (startEncode (setHostProg (setSchedule s ts) hp) m) :=
  (stepWith_cons hts).trans (hostStep_encodeWord (s := setSchedule s ts) hidle hline)

/-! ### The shortest schedule -/

/-- When the sink accepts offer after offer, the events of the frame that are still to send follow one another. -/
theorem runWith_offers {M : Matcher} {m : MsgWord} {ts : List Turn} (evs : List SinkEvent) {j : Nat} {s : State}
    (henc : s.enc = Enc.afterOffers m j) (hevs : (frameEvents m).drop j = evs)
    (hts : s.schedule = List.replicate evs.length (.enc true) ++ ts) :
    runWith M evs.length s = .next { s with
      schedule := ts, enc := Enc.afterOffers m (j + evs.length), sinkTrace := s.sinkTrace ++ evs } := by
  induction evs generalizing j s with
  | nil =>
    rw [List.append_nil, List.length_nil, Nat.add_zero, ← henc, ← show s.schedule = ts from hts]
    rfl
  | cons ev evs ih =>
    have hev : (frameEvents m)[j]? = some ev := by rw [← List.head?_drop, hevs]; rfl
    have hrest : (frameEvents m).drop (j + 1) = evs := by rw [← List.tail_drop, hevs]; rfl
    have hturn : s.schedule = .enc true :: (List.replicate evs.length (.enc true) ++ ts) := hts
    have hstep := (stepWith_cons (M := M) hturn).trans (encStep_offer henc hev)
    rw [List.length_cons, runWith_succ_of_next hstep, ih rfl hrest rfl]
    simp [Nat.add_right_comm, Nat.add_assoc]

/-- Settles O33: the write starts the frame, and all 28 of its events are still to send. -/
theorem encodeFrameCompletes : Obligations.EncodeFrameCompletes := by
  unfold Obligations.EncodeFrameCompletes
  intro M s m hp ts hidle hline hts
  have hstart := stepWith_encodeWord (M := M) hidle hline hts
  have hsend := runWith_offers (M := M) (m := m) (ts := ts) (j := 0) (frameEvents m)
    (s := startEncode (setHostProg (setSchedule s (List.replicate 28 (.enc true) ++ ts)) hp) m) rfl rfl
    (by rw [frameEvents_length]; rfl)
  rw [frameEvents_length] at hsend
  rw [runWith_succ_of_next hstart, hsend]
  rfl

/-! ### Every interleaving -/

/-- Commands leave the schedule alone, and ENC too while it is busy. -/
theorem CommandEffect.schedule_and_enc {w : Word} {s t : State} (h : CommandEffect w s t) :
    t.schedule = s.schedule ∧ (s.enc.phase ≠ .idle → t.enc = s.enc) := by
  cases h with
  | encode hw hp => exact ⟨rfl, fun hbusy => absurd hp hbusy⟩
  | nop | reserved | encodeDropped | decode | decodeDropped | clrerr => exact ⟨rfl, fun _ => rfl⟩

theorem hostStep_schedule {s t : State} (h : hostStep s = .next t) : t.schedule = s.schedule := by
  obtain ⟨-, rfl⟩ | ⟨place, w, rest, -, -, ⟨-, hc⟩ | ⟨-, rfl⟩⟩ | ⟨place, rest, -, -, rfl⟩ |
    ⟨off, mask, v, rest, -, -, rfl⟩ := hostStep_next h
  · rfl
  · obtain ⟨hsched, -⟩ := (performCommand_effect hc).schedule_and_enc
    exact hsched
  · rfl
  · rfl
  · split <;> rfl

/-- No turn chooses the turns after it (log 1). -/
theorem takeTurn_schedule {M : Matcher} {r : Turn} {s t : State} (h : takeTurn M r s = .next t) :
    t.schedule = s.schedule := by
  cases r with
  | host => exact hostStep_schedule h
  | enc a => obtain rfl | ⟨-, -, rfl⟩ | ⟨-, -, -, y, -, rfl⟩ := encStep_next h <;> rfl
  | dec => obtain rfl | ⟨-, rfl⟩ | ⟨-, -, p, q, y, -, -, rfl⟩ := decStep_next h <;> rfl
  | srcAppend p => cases h; rfl
  | srcClose => cases h; rfl
  | reset => cases h; rfl

theorem hostStep_enc_of_busy {s t : State} (hbusy : s.enc.phase ≠ .idle) (h : hostStep s = .next t) :
    t.enc = s.enc := by
  obtain hsame | ⟨place, w, rest, -, -, hc⟩ := hostStep_effect h
  · exact hsame.enc
  · obtain ⟨-, henc⟩ := hc.schedule_and_enc
    exact henc hbusy

/-- While ENC is busy only an accepted offer and the reset touch it or the sink (R61, R130). -/
theorem takeTurn_other_agent {M : Matcher} {r : Turn} {s t : State} (hbusy : s.enc.phase ≠ .idle)
    (hoffer : r ≠ .enc true) (hreset : r ≠ .reset) (h : takeTurn M r s = .next t) :
    t.enc = s.enc ∧ t.sinkTrace = s.sinkTrace := by
  cases r with
  | host =>
    obtain ⟨htrace, -⟩ := hostStep_interfaces h
    exact ⟨hostStep_enc_of_busy hbusy h, htrace⟩
  | enc a =>
    cases a with
    | false => cases h; exact ⟨rfl, rfl⟩
    | true => exact absurd rfl hoffer
  | dec =>
    obtain ⟨henc, -, htrace, -⟩ := decStep_frame h
    exact ⟨henc, htrace⟩
  | srcAppend p => cases h; exact ⟨rfl, rfl⟩
  | srcClose => cases h; exact ⟨rfl, rfl⟩
  | reset => exact absurd rfl hreset

/-- Since the trace was `l`, the sink has accepted exactly the first `j` offers of the frame of `m` (R127). -/
structure FrameUnderway (m : MsgWord) (l : List SinkEvent) (j : Nat) (s : State) : Prop where
  enc : s.enc = Enc.afterOffers m j
  sinkTrace : s.sinkTrace = l ++ (frameEvents m).take j

theorem FrameUnderway.offer_accepted {M : Matcher} {m : MsgWord} {l : List SinkEvent} {j : Nat} {s t : State}
    (hs : FrameUnderway m l j s) (hj : j ≤ 27) (h : takeTurn M (.enc true) s = .next t) :
    FrameUnderway m l (j + 1) t := by
  have hlen : j < (frameEvents m).length := by rw [frameEvents_length]; omega
  have hev : (frameEvents m)[j]? = some (frameEvents m)[j] := List.getElem?_eq_getElem hlen
  obtain rfl := Host.Outcome.next.inj ((encStep_offer hs.enc hev).symm.trans h)
  refine ⟨rfl, ?_⟩
  rw [setEnc_sinkTrace, sinkPut_sinkTrace, hs.sinkTrace, List.append_assoc, List.take_append_getElem]

theorem FrameUnderway.other_turn {M : Matcher} {m : MsgWord} {l : List SinkEvent} {j : Nat} {r : Turn} {s t : State}
    (hs : FrameUnderway m l j s) (hj : j ≤ 27) (hoffer : r ≠ .enc true) (hreset : r ≠ .reset)
    (h : takeTurn M r s = .next t) : FrameUnderway m l j t := by
  obtain ⟨hbusy, -⟩ := Enc.afterOffers_busy hj m
  obtain ⟨henc, htrace⟩ := takeTurn_other_agent (hs.enc ▸ hbusy) hoffer hreset h
  exact ⟨henc.trans hs.enc, htrace.trans hs.sinkTrace⟩

/-- Through any turns without a reset, up to the 27th acceptance, each accepted offer sends the frame's next event. -/
theorem FrameUnderway.run {M : Matcher} {m : MsgWord} {l : List SinkEvent} {rest : List Turn} (ts : List Turn)
    {j : Nat} {s t : State} (hs : FrameUnderway m l j s) (hts : s.schedule = ts ++ rest) (hreset : Turn.reset ∉ ts)
    (hj : j + ts.count (.enc true) ≤ 27) (h : runWith M ts.length s = .next t) :
    FrameUnderway m l (j + ts.count (.enc true)) t ∧ t.schedule = rest := by
  induction ts generalizing j s with
  | nil => cases h; exact ⟨hs, hts⟩
  | cons r ts ih =>
    obtain ⟨u, hstep, hrun⟩ := andThen_eq_next.mp h
    rw [stepWith_cons hts] at hstep
    obtain ⟨hr, hreset'⟩ := List.ne_and_not_mem_of_not_mem_cons hreset
    have hs' : FrameUnderway m l j (setSchedule s (ts ++ rest)) := ⟨hs.enc, hs.sinkTrace⟩
    have hsched := takeTurn_schedule hstep
    by_cases hoffer : r = .enc true
    · subst hoffer
      rw [List.count_cons_self, Nat.add_comm _ 1, ← Nat.add_assoc] at hj ⊢
      exact ih (hs'.offer_accepted (by omega) hstep) hsched hreset' hj hrun
    · rw [List.count_cons_of_ne hoffer] at hj ⊢
      exact ih (hs'.other_turn (by omega) hoffer (Ne.symm hr) hstep) hsched hreset' hj hrun

/-- Settles O32: up to the 27th acceptance the frame is underway, so ENC is not done, and the next acceptance ends it. -/
theorem traceOfOneFrame : Obligations.TraceOfOneFrame := by
  unfold Obligations.TraceOfOneFrame
  intro M s m hp ts rest hidle hline hts hreset hcount
  have hstart := stepWith_encodeWord (M := M) hidle hline hts
  have hbegun : FrameUnderway m s.sinkTrace 0
      (startEncode (setHostProg (setSchedule s (ts ++ .enc true :: rest)) hp) m) := ⟨rfl, (List.append_nil _).symm⟩
  refine ⟨fun n u hn hu => ?_, fun t ht => ?_⟩
  · have hle : (ts.take n).count (.enc true) ≤ 27 := hcount ▸ (List.take_sublist n ts).count_le _
    rw [runWith_succ_of_next hstart, ← List.length_take_of_le hn] at hu
    obtain ⟨hu, -⟩ := hbegun.run (ts.take n) (rest := ts.drop n ++ .enc true :: rest)
      (by rw [← List.append_assoc, List.take_append_drop]; rfl) (fun hmem => hreset (List.mem_of_mem_take hmem))
      (by omega) hu
    obtain ⟨-, hdone⟩ := Enc.afterOffers_busy (j := 0 + (ts.take n).count (.enc true)) (by omega) m
    rw [hu.enc, hdone]
  · rw [runWith_succ_of_next hstart, runWith_add] at ht
    obtain ⟨u, hrun, hlast⟩ := andThen_eq_next.mp ht
    obtain ⟨hu, hsched⟩ := hbegun.run ts rfl hreset (by omega) hrun
    obtain ⟨v, hstep, hv⟩ := andThen_eq_next.mp hlast
    obtain rfl := Host.Outcome.next.inj hv
    rw [stepWith_cons hsched] at hstep
    rw [hcount] at hu
    have hu' : FrameUnderway m s.sinkTrace 27 (setSchedule u rest) := ⟨hu.enc, hu.sinkTrace⟩
    have hended := hu'.offer_accepted (Nat.le_refl 27) hstep
    refine ⟨?_, hended.enc⟩
    rw [hended.sinkTrace, List.take_of_length_le (by rw [frameEvents_length])]
    rfl

end Sys2Proof.Machine
end

section
/-! PROOFS. The decoder: the command that starts a decode (R140), what its step does in each busy state (R142 to R150),
and which turns of the machine may touch its elements (R151). -/

namespace Sys2Proof.Machine

/-! ### The DECODE command -/

theorem exec_decode_of_not_busy {s : State} (hb : s.dec.state.busy = false) :
    exec .decode s = .next (startDecode s) := by
  rw [exec_decode, execDecode, if_neg (by rw [hb]; decide)]

theorem exec_decode_of_busy {s : State} (hb : s.dec.state.busy = true) : exec .decode s = .next (raiseDecDrop s) :=
  if_pos hb

theorem decStatusReg_startDecode (s : State) : decStatusReg (startDecode s) = 0x00010001#32 := by
  apply BitVec.eq_of_toNat_eq
  rw [decStatusReg_toNat, startDecode_dec]
  rfl

theorem decMsgReg_startDecode (s : State) : decMsgReg (startDecode s) = 0#32 := by
  rw [decMsgReg, startDecode_dec]
  rfl

/-- Settles O18: the two branches of DECODE, reached by the instruction and by its word alike. Protected, since the
decoder of command words has the same name. -/
protected theorem decodeCommand : Obligations.DecodeCommand := by
  unfold Obligations.DecodeCommand
  intro s
  have hword : performCommand 0x20000000#32 s = exec .decode s := performCommand_of_ok rfl s
  refine ⟨fun hs => ?_, fun hb => ?_⟩
  · have hb : s.dec.state.busy = false := by obtain h | h | h := hs <;> rw [h] <;> rfl
    have hexec := exec_decode_of_not_busy hb
    exact ⟨_, hexec, hword.trans hexec, rfl, decStatusReg_startDecode s, decMsgReg_startDecode s⟩
  · obtain ⟨-, -, hdrop, -⟩ := errReg_fields (raiseDecDrop s)
    have hexec := exec_decode_of_busy hb
    exact ⟨_, hexec, hword.trans hexec, rfl, hdrop⟩

/-! ### A symbol taken, state by state -/

/-- Shifting a bit in, as R146 to R148 write it: the mask keeps the accumulator's width. -/
theorem shiftIn_eq_ofNat {w : Nat} (acc : BitVec w) (b : Bool) :
    shiftIn acc b = BitVec.ofNat w (acc.toNat <<< 1 ||| b.toNat) := by
  apply BitVec.eq_of_toNat_eq
  rw [shiftIn, BitVec.toNat_or, BitVec.toNat_shiftLeft, BitVec.toNat_setWidth, BitVec.toNat_ofBool, BitVec.toNat_ofNat,
    Nat.or_mod_two_pow]

@[simp] theorem bitSym_bit (b : Bool) : (bitSym b).bit = b := by cases b <;> rfl

theorem bitSym_instr (b : Bool) : (bitSym b).instr = if b then .bit1 else .bit0 := by cases b <;> rfl

theorem Dec.advance_readDevice {d : Dec} (hs : d.state = .readDevice) (y : Symbol) :
    d.advance y = { d with
      accDevice := shiftIn d.accDevice y.bit
      state := if d.i = 4#4 then .readGroup else .readDevice
      i := if d.i = 4#4 then 0#4 else d.i + 1#4 } := by
  simp only [Dec.advance, hs, Dec.deviceBit]
  split <;> rfl

theorem Dec.advance_readGroup {d : Dec} (hs : d.state = .readGroup) (y : Symbol) :
    d.advance y = { d with
      accGroup := shiftIn d.accGroup y.bit
      state := if d.i = 14#4 then .readPayload else .readGroup
      i := if d.i = 14#4 then 0#4 else d.i + 1#4 } := by
  simp only [Dec.advance, hs, Dec.groupBit]
  split <;> rfl

theorem Dec.advance_readPayload {d : Dec} (hs : d.state = .readPayload) (y : Symbol) :
    d.advance y = { d with
      accPayload := shiftIn d.accPayload y.bit
      state := if d.i = 3#4 then .awaitStop1 else .readPayload
      i := if d.i = 3#4 then 0#4 else d.i + 1#4 } := by
  simp only [Dec.advance, hs, Dec.payloadBit]
  split <;> rfl

section Take

variable {s : State} {p : Pulse} {q : List Pulse} (hq : s.srcQueue = p :: q)

include hq

/-- A symbol taken at a legal index removes the head pulse and advances DEC with the pulse counted (R141). -/
theorem takeSymbol_of_cons {d : Dec} (hi : s.dec.i.toNat ≤ s.dec.state.lastIndex) (y : Symbol)
    (hd : { s.dec with consumed := s.dec.consumed + 1#6 }.advance y = d) :
    takeSymbol y s = .next { s with srcQueue := q, dec := d } := by
  rw [takeSymbol_of_index_le hi, ← hd, consume, srcConsume, hq]
  rfl

theorem takeSymbol_awaitSync (hs : s.dec.state = .awaitSync) (hi : s.dec.i = 0#4) (y : Symbol) :
    takeSymbol y s = .next { s with
      srcQueue := q
      dec := { s.dec with state := .readDevice, i := 0#4, consumed := s.dec.consumed + 1#6 } } :=
  takeSymbol_of_cons hq (by rw [hs, hi]; decide) y (by simp only [Dec.advance, hs])

theorem takeSymbol_readDevice (hs : s.dec.state = .readDevice) (hi : s.dec.i.toNat ≤ 4) (b : Bool) :
    takeSymbol (bitSym b) s = .next { s with
      srcQueue := q
      dec := { s.dec with
        accDevice := BitVec.ofNat 5 (s.dec.accDevice.toNat <<< 1 ||| b.toNat)
        state := if s.dec.i = 4#4 then .readGroup else .readDevice
        i := if s.dec.i = 4#4 then 0#4 else s.dec.i + 1#4
        consumed := s.dec.consumed + 1#6 } } := by
  refine takeSymbol_of_cons hq (by rwa [hs]) _ ?_
  rw [Dec.advance_readDevice (by exact hs), bitSym_bit, shiftIn_eq_ofNat]

theorem takeSymbol_readGroup (hs : s.dec.state = .readGroup) (hi : s.dec.i.toNat ≤ 14) (b : Bool) :
    takeSymbol (bitSym b) s = .next { s with
      srcQueue := q
      dec := { s.dec with
        accGroup := BitVec.ofNat 15 (s.dec.accGroup.toNat <<< 1 ||| b.toNat)
        state := if s.dec.i = 14#4 then .readPayload else .readGroup
        i := if s.dec.i = 14#4 then 0#4 else s.dec.i + 1#4
        consumed := s.dec.consumed + 1#6 } } := by
  refine takeSymbol_of_cons hq (by rwa [hs]) _ ?_
  rw [Dec.advance_readGroup (by exact hs), bitSym_bit, shiftIn_eq_ofNat]

theorem takeSymbol_readPayload (hs : s.dec.state = .readPayload) (hi : s.dec.i.toNat ≤ 3) (b : Bool) :
    takeSymbol (bitSym b) s = .next { s with
      srcQueue := q
      dec := { s.dec with
        accPayload := BitVec.ofNat 4 (s.dec.accPayload.toNat <<< 1 ||| b.toNat)
        state := if s.dec.i = 3#4 then .awaitStop1 else .readPayload
        i := if s.dec.i = 3#4 then 0#4 else s.dec.i + 1#4
        consumed := s.dec.consumed + 1#6 } } := by
  refine takeSymbol_of_cons hq (by rwa [hs]) _ ?_
  rw [Dec.advance_readPayload (by exact hs), bitSym_bit, shiftIn_eq_ofNat]

theorem takeSymbol_awaitStop1 (hs : s.dec.state = .awaitStop1) (hi : s.dec.i = 0#4) (y : Symbol) :
    takeSymbol y s = .next { s with
      srcQueue := q
      dec := { s.dec with state := .awaitStop2, consumed := s.dec.consumed + 1#6 } } :=
  takeSymbol_of_cons hq (by rw [hs, hi]; decide) y (by simp only [Dec.advance, hs])

theorem takeSymbol_awaitStop2 (hs : s.dec.state = .awaitStop2) (hi : s.dec.i = 0#4) (y : Symbol) :
    takeSymbol y s = .next { s with
      srcQueue := q
      dec := { s.dec with
        state := .accepted
        consumed := s.dec.consumed + 1#6
        msg := s.dec.accDevice ++ s.dec.accGroup ++ s.dec.accPayload } } :=
  takeSymbol_of_cons hq (by rw [hs, hi]; decide) y (by simp only [Dec.advance, hs]; rfl)

/-- On the receiving side a symbol that is a candidate of DEC's state is taken (R141; log 10). -/
theorem exec_symbol_of_candidate (hw : s.wire = .rx) {y : Symbol} (hy : y ∈ candidates s.dec.state) :
    exec y.instr s = takeSymbol y s := by
  simp [exec_symbol_rx hw, rxSymbol, busy_of_mem_candidates hy, srcHead_pulse.mpr ⟨q, hq⟩, hy]

/-- In DEC's step the symbol the head pulse is classified as is taken (R141). -/
theorem decStep_of_classify {M : Matcher} {y : Symbol} (hc : classify M s.dec.state p = some y) :
    decStep M s = takeSymbol y s :=
  decStep_of_match (busy_of_mem_candidates (classify_mem hc)) (srcHead_pulse.mpr ⟨q, hq⟩) hc

end Take

theorem bitSym_mem_candidates {st : DecState} (h : candidates st = [.bit1, .bit0]) (b : Bool) :
    bitSym b ∈ candidates st := by
  rw [h]
  cases b <;> decide

/-- Settles O35: each symbol is a candidate of its states, and is taken there as the state's rule says. -/
theorem symbolsTakenByDecoder : Obligations.SymbolsTakenByDecoder := by
  unfold Obligations.SymbolsTakenByDecoder
  intro s p q hw hq
  have htake {y : Symbol} (hy : y ∈ candidates s.dec.state) : exec y.instr s = takeSymbol y s :=
    exec_symbol_of_candidate hq hw hy
  have hbit (b : Bool) (hs : candidates s.dec.state = [.bit1, .bit0]) :
      exec (if b then .bit1 else .bit0) s = takeSymbol (bitSym b) s :=
    bitSym_instr b ▸ htake (bitSym_mem_candidates hs b)
  refine ⟨fun hs hi => ?_, fun hs hi b => ?_, fun hs hi b => ?_, fun hs hi b => ?_, fun hs hi => ?_, fun hs hi => ?_⟩
  · exact (htake (y := .sync) (by rw [hs]; decide)).trans (takeSymbol_awaitSync hq hs hi _)
  · exact (hbit b (by rw [hs]; rfl)).trans (takeSymbol_readDevice hq hs hi b)
  · exact (hbit b (by rw [hs]; rfl)).trans (takeSymbol_readGroup hq hs hi b)
  · exact (hbit b (by rw [hs]; rfl)).trans (takeSymbol_readPayload hq hs hi b)
  · exact (htake (y := .stop) (by rw [hs]; decide)).trans (takeSymbol_awaitStop1 hq hs hi _)
  · exact (htake (y := .stop) (by rw [hs]; decide)).trans (takeSymbol_awaitStop2 hq hs hi _)

/-! ### Rejection and hold -/

/-- A head pulse that is no candidate of a busy state rejects the frame (R141, R190). -/
theorem decStep_of_cons_no_match {M : Matcher} {s : State} {p : Pulse} {q : List Pulse}
    (hb : s.dec.state.busy = true) (hq : s.srcQueue = p :: q) (hc : ∀ y ∈ candidates s.dec.state, M p y = false) :
    decStep M s = .next (frameMismatch s) :=
  decStep_of_no_match hb (srcHead_pulse.mpr ⟨q, hq⟩) (classify_none.mpr hc)

/-- An exhausted source rejects the frame in every busy state (R143). -/
theorem decStep_of_exhausted {M : Matcher} {s : State} (hb : s.dec.state.busy = true) (hq : s.srcQueue = [])
    (hclosed : s.srcClosed = true) : decStep M s = .next (frameMismatch s) :=
  decStep_of_ended hb (srcHead_ended.mpr ⟨hq, hclosed⟩)

/-- Settles O41: an empty source is at its end or to be waited for. -/
theorem holdAndExhaustion : Obligations.HoldAndExhaustion := by
  unfold Obligations.HoldAndExhaustion
  exact fun M s hb hq => ⟨fun hopen => decStep_of_wait (srcHead_wait.mpr ⟨hq, hopen⟩), decStep_of_exhausted hb hq⟩

/-! ### The steps of DEC, state by state -/

/-- Settles O37: SYNC is the only candidate, so its match decides. -/
theorem awaitSyncStep : Obligations.AwaitSyncStep := by
  unfold Obligations.AwaitSyncStep
  intro M s hs hi
  have hb : s.dec.state.busy = true := by rw [hs]; rfl
  refine ⟨fun p q hq hy => ?_, fun p q hq hy => ?_, decStep_of_exhausted hb⟩
  · have hc : classify M s.dec.state p = some .sync := by rw [hs, classify_of_one_candidate rfl, if_pos hy]
    exact (decStep_of_classify hq hc).trans (takeSymbol_awaitSync hq hs hi _)
  · exact decStep_of_cons_no_match hb hq (by simpa [hs, candidates] using hy)

/-- The bit a pulse is read as: BIT1 if that matches, else BIT0 (R105, R106). -/
theorem classify_bit {M : Matcher} {p : Pulse} {st : DecState} {b : Bool} (hst : candidates st = [.bit1, .bit0])
    (hb : (b = true ∧ M p .bit1 = true) ∨ (b = false ∧ M p .bit1 = false ∧ M p .bit0 = true)) :
    classify M st p = some (bitSym b) := by
  rw [classify_of_bit_candidates hst]
  obtain ⟨rfl, h1⟩ | ⟨rfl, h1, h0⟩ := hb
  · rw [if_pos h1]
    rfl
  · rw [if_neg (by rw [h1]; decide), if_pos h0]
    rfl

/-- Before the mask, shifting a bit in makes a number one bit wider at most (R146 to R148). -/
theorem shift_or_lt {a n : Nat} (b : Bool) (h : a < 2 ^ n) : a <<< 1 ||| b.toNat < 2 ^ (n + 1) := by
  have hb : b.toNat < 2 ^ (n + 1) := lt_of_lt_of_le (Bool.toNat_lt b) (Nat.le_self_pow n.succ_ne_zero 2)
  exact Nat.or_lt_two_pow (by rw [Nat.shiftLeft_eq, Nat.pow_succ]; omega) hb

/-- In a legal state at most the field's last bit is missing, so no mask drops a 1 bit (R146 to R148). -/
theorem accumulator_masks_drop_nothing {d : Dec} (h : d.legal) (b : Bool) :
    (d.state = .readDevice → d.accDevice.toNat <<< 1 ||| b.toNat < 32) ∧
    (d.state = .readGroup → d.accGroup.toNat <<< 1 ||| b.toNat < 32768) ∧
    (d.state = .readPayload → d.accPayload.toNat <<< 1 ||| b.toNat < 16) := by
  obtain ⟨hi, -, hdev, hgrp, hpay, -⟩ := h
  refine ⟨fun hs => ?_, fun hs => ?_, fun hs => ?_⟩
  all_goals simp only [Dec.received, hs, DecState.lastIndex] at hi hdev hgrp hpay
  · exact (shift_or_lt b hdev).trans_le (Nat.pow_le_pow_right (by decide) (Nat.succ_le_succ hi))
  · exact (shift_or_lt b hgrp).trans_le (Nat.pow_le_pow_right (by decide) (Nat.succ_le_succ hi))
  · exact (shift_or_lt b hpay).trans_le (Nat.pow_le_pow_right (by decide) (Nat.succ_le_succ hi))

/-- Settles O38: the three states share their candidates, so one classification serves the three fields. -/
theorem bitSteps : Obligations.BitSteps := by
  unfold Obligations.BitSteps
  intro M s
  refine ⟨fun p q b hq hb => ?_, fun hs hbad => ?_, fun hl => accumulator_masks_drop_nothing hl.2⟩
  · have htake (hs : candidates s.dec.state = [.bit1, .bit0]) : decStep M s = takeSymbol (bitSym b) s :=
      decStep_of_classify hq (classify_bit hs hb)
    exact ⟨fun hs hi => (htake (by rw [hs]; rfl)).trans (takeSymbol_readDevice hq hs hi b),
      fun hs hi => (htake (by rw [hs]; rfl)).trans (takeSymbol_readGroup hq hs hi b),
      fun hs hi => (htake (by rw [hs]; rfl)).trans (takeSymbol_readPayload hq hs hi b)⟩
  · have hst : candidates s.dec.state = [.bit1, .bit0] := by obtain h | h | h := hs <;> rw [h] <;> rfl
    have hbusy : s.dec.state.busy = true := busy_of_mem_candidates (bitSym_mem_candidates hst true)
    obtain ⟨p, q, hq, h1, h0⟩ | ⟨hq, hclosed⟩ := hbad
    · exact decStep_of_cons_no_match hbusy hq (by simp [hst, h1, h0])
    · exact decStep_of_exhausted hbusy hq hclosed

/-! ### What a step of the machine can do to the decoder -/

/-- Commands leave the decoder alone, except for an accepted DECODE (R140). -/
theorem CommandEffect.dec {w : Word} {s t : State} (h : CommandEffect w s t) :
    t.dec = s.dec ∨ (w = 0x20000000#32 ∧ t = startDecode s) := by
  cases h with
  | decode hw hb => exact .inr ⟨hw, rfl⟩
  | nop | reserved | encode | encodeDropped | decodeDropped | clrerr => exact .inl rfl

/-- The decoder's elements are touched by reset, by the write of a DECODE, and by DEC's own step only (R151, R196). -/
theorem stepWith_dec {M : Matcher} {s t : State} (h : stepWith M s = .next t) :
    t.dec = s.dec ∨ ((nextTurn s).1 = .reset ∧ t.dec = Dec.reset) ∨
    ((nextTurn s).1 = .host ∧ t.dec = { Dec.reset with state := .awaitSync } ∧
      ∃ place rest, s.hostProg = .write place 4 0x20000000#32 :: rest ∧ place.offset = 0) ∨
    ((nextTurn s).1 = .dec ∧ ∃ u, SameBlock s u ∧ decStep M u = .next t) := by
  obtain ⟨u, hsame, hprog, hu⟩ := stepWith_next h
  cases hturn : (nextTurn s).1 <;> rw [hturn] at hu
  case host =>
    obtain hblock | ⟨place, w, rest, hline, h0, hc⟩ := hostStep_effect hu
    · exact .inl (hblock.dec.trans hsame.dec)
    · obtain hstay | ⟨rfl, rfl⟩ := hc.dec
      · exact .inl (hstay.trans hsame.dec)
      · exact .inr (.inr (.inl ⟨rfl, rfl, place, rest, hprog ▸ hline, h0⟩))
  case enc a =>
    obtain ⟨hdec, -⟩ := encStep_frame hu
    exact .inl (hdec.trans hsame.dec)
  case dec => exact .inr (.inr (.inr ⟨rfl, u, hsame, hu⟩))
  case srcAppend p => cases hu; exact .inl hsame.dec
  case srcClose => cases hu; exact .inl hsame.dec
  case reset => cases hu; exact .inr (.inl ⟨rfl, rfl⟩)

/-- Settles O43: outside the busy states DEC's own step is none, which leaves reset and the write of a DECODE. -/
theorem terminalStatesPersist : Obligations.TerminalStatesPersist := by
  unfold Obligations.TerminalStatesPersist
  intro M s hb
  have hidle : ¬ s.dec.state.busy = true := by rw [hb]; decide
  refine ⟨decStep_of_not_busy hidle, fun t h => ?_⟩
  obtain hstay | ⟨hturn, hreset⟩ | ⟨hturn, hstart, hline⟩ | ⟨-, u, hsame, hu⟩ := stepWith_dec h
  · exact .inl hstay
  · exact .inr (.inl ⟨hturn, by rw [hreset]; rfl⟩)
  · exact .inr (.inr ⟨hturn, by rw [hstart], hline⟩)
  · rw [decStep_of_not_busy (hsame.dec.symm ▸ hidle)] at hu
    cases hu
    exact .inl hsame.dec

/-! ### The stop steps -/

/-- `dec_msg` stays over DEC's step, or the step is the one that accepts (R150). -/
theorem decStep_msg {M : Matcher} {s t : State} (h : decStep M s = .next t) :
    t.dec.msg = s.dec.msg ∨ (s.dec.state = .awaitStop2 ∧ t.dec.state = .accepted) := by
  obtain rfl | ⟨-, rfl⟩ | ⟨-, -, p, q, y, -, -, rfl⟩ := decStep_next h
  · exact .inl rfl
  · exact .inl rfl
  · by_cases hs : s.dec.state = .awaitStop2
    · exact .inr ⟨hs, by simp [Dec.advance, hs]⟩
    · exact .inl (Dec.advance_msg (d := (consume s).dec) y hs)

/-- The status the host sees of a legal accepted decode: all 27 pulses consumed (R150). -/
theorem decStatusReg_of_accepted {s : State} (h : s.dec.legal) (hs : s.dec.state = .accepted) :
    decStatusReg s = 0x00061B07#32 := by
  obtain ⟨hi, hc, -⟩ := h
  simp only [Dec.countLegal, hs, DecState.lastIndex, Nat.le_zero] at hi hc
  apply BitVec.eq_of_toNat_eq
  rw [decStatusReg_toNat, hs, hc, hi]
  rfl

/-- Settles O39: STOP is the only candidate of both states; legality gives what is shown at the end. -/
theorem stopSteps : Obligations.StopSteps := by
  unfold Obligations.StopSteps
  intro M s
  refine ⟨fun hi p q hq hy => ?_, fun hs hbad => ?_, fun hl hs t ht => ?_, fun t ht => ?_⟩
  · have htake (hs : candidates s.dec.state = [.stop]) : decStep M s = takeSymbol .stop s :=
      decStep_of_classify hq (by rw [classify_of_one_candidate hs, if_pos hy])
    exact ⟨fun hs => (htake (by rw [hs]; rfl)).trans (takeSymbol_awaitStop1 hq hs hi _),
      fun hs => (htake (by rw [hs]; rfl)).trans (takeSymbol_awaitStop2 hq hs hi _)⟩
  · have hst : candidates s.dec.state = [.stop] := by obtain h | h := hs <;> rw [h] <;> rfl
    have hbusy : s.dec.state.busy = true := busy_of_mem_candidates (y := .stop) (by simp [hst])
    obtain ⟨p, q, hq, hy⟩ | ⟨hq, hclosed⟩ := hbad
    · exact decStep_of_cons_no_match hbusy hq (by simp [hst, hy])
    · exact decStep_of_exhausted hbusy hq hclosed
  · have htl := decStep_keeps_legal hl.2 ht
    exact ⟨decStatusReg_of_accepted htl, fun hrej => Dec.msg_eq_zero htl (by rw [hrej]; decide)⟩
  · obtain hstay | ⟨-, hreset⟩ | ⟨-, hstart, -⟩ | ⟨hturn, u, hsame, hu⟩ := stepWith_dec ht
    · exact .inl (by rw [hstay])
    · exact .inr (.inl (by rw [hreset]; rfl))
    · exact .inr (.inl (by rw [hstart]; rfl))
    · have hmsg := decStep_msg hu
      rw [hsame.dec] at hmsg
      exact hmsg.imp id fun haccept => .inr ⟨hturn, haccept⟩

end Sys2Proof.Machine
end

section
/-! PROOFS. The decode function (R153): position by position it takes a candidate of the grammar, so it accepts exactly
when the pulses read as a frame (R155) and otherwise stops at the first pulse that is no candidate (R154). -/

namespace Sys2Proof.Machine

/-! ### The round trip -/

/-- The message word as the host writes it: each field shifted to its place (R80). -/
theorem packMsg_toNat_or (d : BitVec 5) (g : BitVec 15) (p : BitVec 4) :
    (packMsg d g p).toNat = d.toNat <<< 19 ||| g.toNat <<< 4 ||| p.toNat := by
  rw [packMsg, BitVec.toNat_append, BitVec.toNat_append, Nat.shiftLeft_or_distrib, ← Nat.shiftLeft_add]

/-- Settles O46: an exact frame decodes to its message, by P1 and P2. -/
theorem roundTrip : Obligations.RoundTrip := by
  unfold Obligations.RoundTrip
  exact fun M h1 h2 d g p T => ⟨decodeFn_exactTrain h1 h2 (packMsg d g p) T, packMsg_toNat_or d g p⟩

/-! ### Which symbols the pulses read as -/

/-- The candidates at each position of the grammar (R76, R105, R154). -/
def candidatesAt (k : Nat) : List Symbol := if k = 0 then [.sync] else if k ≤ 24 then [.bit1, .bit0] else [.stop]

theorem candidatesAt_bit {k : Nat} (h1 : 1 ≤ k) (h2 : k ≤ 24) : candidatesAt k = [.bit1, .bit0] := by
  rw [candidatesAt, if_neg (by omega), if_pos h2]

theorem candidatesAt_stop {k : Nat} (h : 25 ≤ k) : candidatesAt k = [.stop] := by
  rw [candidatesAt, if_neg (by omega), if_neg (by omega)]

theorem takeAt_some {M : Matcher} {L : List Pulse} {n : Nat} {cands : List Symbol} {y : Symbol}
    (h : takeAt M L n cands = some y) : ∃ p, L[n]? = some p ∧ M p y = true ∧ y ∈ cands := by
  unfold takeAt at h
  split at h
  · cases h
  · next p hp => exact ⟨p, hp, List.find?_some h, List.mem_of_find?_eq_some h⟩

theorem takeAt_none {M : Matcher} {L : List Pulse} {n : Nat} {cands : List Symbol} (h : takeAt M L n cands = none) :
    L.length ≤ n ∨ ∃ p, L[n]? = some p ∧ ∀ y ∈ cands, M p y = false := by
  unfold takeAt at h
  split at h
  · next hp => exact .inl (List.getElem?_eq_none_iff.mp hp)
  · next p hp => exact .inr ⟨p, hp, by simpa using h⟩

/-- The message word whose bits the pulses of a train read as, whether they match or not. -/
def readMessage (M : Matcher) (L : List Pulse) : MsgWord :=
  BitVec.ofFnLE fun j => takeAt M L (24 - j) [.bit1, .bit0] == some .bit1

theorem readMessage_getLsbD (M : Matcher) (L : List Pulse) {k : Nat} (h1 : 1 ≤ k) (h2 : k ≤ 24) :
    (readMessage M L).getLsbD (24 - k) = (takeAt M L k [.bit1, .bit0] == some .bit1) := by
  rw [readMessage, BitVec.getLsbD_ofFnLE, dif_pos (by omega), show 24 - (24 - k) = k by omega]

/-- What a pulse in the frame is taken as is what stands there in the frame of the message read. -/
theorem symbolAt_readMessage {M : Matcher} {L : List Pulse} {k : Nat} {y : Symbol} (hk : k ≤ 26)
    (h : takeAt M L k (candidatesAt k) = some y) : symbolAt (readMessage M L) k = some y := by
  obtain ⟨-, -, -, hy⟩ := takeAt_some h
  obtain rfl | ⟨h1, h2⟩ | ⟨h1, h2⟩ | h27 := frame_index_cases k
  · exact congrArg some (List.mem_singleton.mp hy).symm
  · rw [candidatesAt_bit h1 h2] at h hy
    rw [symbolAt_bit h1 h2, readMessage_getLsbD M L h1 h2, h]
    obtain rfl | rfl : y = .bit1 ∨ y = .bit0 := by simpa using hy
    · rfl
    · rfl
  · rw [candidatesAt_stop h1] at hy
    rw [symbolAt_stop h1 h2, List.mem_singleton.mp hy]
  · omega

/-- The first `n` pulses of the train are taken as the first `n` symbols of the frame of `m`. -/
def ReadsAsFrame (M : Matcher) (L : List Pulse) (m : MsgWord) (n : Nat) : Prop :=
  ∀ k, k < n → takeAt M L k (candidatesAt k) = symbolAt m k

/-- A train reads as a frame, or as one up to its first pulse, or its end, that is no candidate of its position. -/
theorem readsAsFrame_or_stops (M : Matcher) (L : List Pulse) :
    ReadsAsFrame M L (readMessage M L) 27 ∨
      ∃ n, n ≤ 26 ∧ ReadsAsFrame M L (readMessage M L) n ∧ takeAt M L n (candidatesAt n) = none := by
  suffices hup : ∀ n, n ≤ 27 → ReadsAsFrame M L (readMessage M L) n ∨
      ∃ k, k ≤ 26 ∧ ReadsAsFrame M L (readMessage M L) k ∧ takeAt M L k (candidatesAt k) = none from hup 27 le_rfl
  intro n hn
  induction n with
  | zero => exact .inl fun k hk => absurd hk (Nat.not_lt_zero k)
  | succ n ih =>
    obtain hpre | hstop := ih (by omega)
    · cases htake : takeAt M L n (candidatesAt n) with
      | none => exact .inr ⟨n, by omega, hpre, htake⟩
      | some y =>
        refine .inl fun k hk => ?_
        obtain hlt | rfl := Nat.lt_succ_iff_lt_or_eq.mp hk
        · exact hpre k hlt
        · rw [htake, symbolAt_readMessage (by omega) htake]
    · exact .inr hstop

/-! ### The value of the decode function -/

/-- Reading stops at the first pulse that is no bit (R153). -/
theorem readField_of_no_bit {M : Matcher} {L : List Pulse} {w n v k : Nat} (hlo : n ≤ k) (hhi : k < n + w)
    (hbits : ∀ j, n ≤ j → j < k → takeAt M L j [.bit1, .bit0] ≠ none) (hstop : takeAt M L k [.bit1, .bit0] = none) :
    readField M L w n v = (none, k) := by
  induction w generalizing n v with
  | zero => omega
  | succ w ih =>
    obtain rfl | hlt := Nat.eq_or_lt_of_le hlo
    · simp only [readField, hstop]
    · obtain ⟨y, hy⟩ := Option.ne_none_iff_exists'.mp (hbits n le_rfl hlt)
      simp only [readField, hy]
      exact ih hlt (by omega) fun j hj => hbits j (by omega)

section Frame

variable {M : Matcher} {L : List Pulse} {m : MsgWord} {n : Nat}

theorem ReadsAsFrame.bit (h : ReadsAsFrame M L m n) {k : Nat} (hk : k < n) (h1 : 1 ≤ k) (h2 : k ≤ 24) :
    takeAt M L k [.bit1, .bit0] = some (bitSym (m.getLsbD (24 - k))) := by
  rw [← candidatesAt_bit h1 h2, h k hk, symbolAt_bit h1 h2]

/-- A field all of whose pulses are read gives that part of the message word (R80, R153). -/
theorem ReadsAsFrame.field (h : ReadsAsFrame M L m n) {w a : Nat} (hlo : 1 ≤ a) (hhi : a + w ≤ 25)
    (hn : a + w ≤ n) : readField M L w a 0 = (some (m.toNat >>> (25 - a - w) % 2 ^ w), a + w) := by
  rw [readField_of_bits (x := m.toNat >>> (25 - a - w)) fun k hk1 hk2 => ?_, Nat.zero_mul, Nat.zero_add]
  rw [h.bit (by omega) (by omega) (by omega), Nat.testBit_shiftRight,
    show 25 - a - w + (a + w - 1 - k) = 24 - k by omega]
  rfl

theorem ReadsAsFrame.sync (h : ReadsAsFrame M L m n) (hn : 1 ≤ n) : takeAt M L 0 [.sync] = some .sync := h 0 hn

theorem ReadsAsFrame.device (h : ReadsAsFrame M L m n) (hn : 6 ≤ n) :
    readField M L 5 1 0 = (some (m.toNat >>> 19 % 2 ^ 5), 6) :=
  h.field (by decide) (by decide) hn

theorem ReadsAsFrame.group (h : ReadsAsFrame M L m n) (hn : 21 ≤ n) :
    readField M L 15 6 0 = (some (m.toNat >>> 4 % 2 ^ 15), 21) :=
  h.field (by decide) (by decide) hn

theorem ReadsAsFrame.payload (h : ReadsAsFrame M L m n) (hn : 25 ≤ n) :
    readField M L 4 21 0 = (some (m.toNat >>> 0 % 2 ^ 4), 25) :=
  h.field (by decide) (by decide) hn

theorem ReadsAsFrame.stop (h : ReadsAsFrame M L m n) {k : Nat} (hk : k < n) (h1 : 25 ≤ k) (h2 : k ≤ 26) :
    takeAt M L k [.stop] = some .stop := by
  rw [← candidatesAt_stop h1, h k hk, symbolAt_stop h1 h2]

/-- A train that reads as a frame is accepted with the frame's message (R153, R155). -/
theorem decodeFn_of_frame (h : ReadsAsFrame M L m 27) : decodeFn M L = (some m, 27) := by
  simp only [decodeFn, h.sync (by decide), h.device (by decide), h.group (by decide), h.payload (by decide),
    h.stop (k := 25) (by decide) (by decide) (by decide), h.stop (k := 25 + 1) (by decide) (by decide) (by decide),
    ofNat_fields]

/-- Reading a field stops at the pulse where the train stops being a frame. -/
theorem ReadsAsFrame.field_stops (h : ReadsAsFrame M L m n) (hstop : takeAt M L n (candidatesAt n) = none) {w a : Nat}
    (hlo : 1 ≤ a) (hhi : a + w ≤ 25) (ha : a ≤ n) (hn : n < a + w) : readField M L w a 0 = (none, n) := by
  rw [candidatesAt_bit (by omega) (by omega)] at hstop
  refine readField_of_no_bit ha hn (fun j hj1 hj2 => ?_) hstop
  rw [h.bit hj2 (by omega) (by omega)]
  exact Option.some_ne_none _

/-- A train that stops being a frame is rejected where it stops (R153, R154). -/
theorem decodeFn_of_stop (h : ReadsAsFrame M L m n) (hn : n ≤ 26) (hstop : takeAt M L n (candidatesAt n) = none) :
    decodeFn M L = (none, n) := by
  by_cases h1 : 1 ≤ n
  case neg =>
    obtain rfl : n = 0 := by omega
    rw [decodeFn, show takeAt M L 0 [.sync] = none from hstop]
  by_cases h6 : 6 ≤ n
  case neg => simp only [decodeFn, h.sync h1, h.field_stops hstop (w := 5) le_rfl (by decide) h1 (by omega)]
  by_cases h21 : 21 ≤ n
  case neg =>
    simp only [decodeFn, h.sync h1, h.device h6,
      h.field_stops hstop (w := 15) (a := 6) (by decide) (by decide) h6 (by omega)]
  by_cases h25 : 25 ≤ n
  case neg =>
    simp only [decodeFn, h.sync h1, h.device h6, h.group h21,
      h.field_stops hstop (w := 4) (a := 21) (by decide) (by decide) h21 (by omega)]
  rw [candidatesAt_stop h25] at hstop
  obtain rfl | rfl : n = 25 ∨ n = 26 := by omega
  · simp only [decodeFn, h.sync h1, h.device h6, h.group h21, h.payload h25, hstop]
  · simp only [decodeFn, h.sync h1, h.device h6, h.group h21, h.payload h25, hstop,
      h.stop (k := 25) (by decide) le_rfl (by decide)]

end Frame

/-- Settles O45: a rejected train is no frame, so it stops at the position given, with its pulses read before that. -/
theorem rejectionPosition : Obligations.RejectionPosition := by
  unfold Obligations.RejectionPosition
  intro M L n h
  obtain hframe | ⟨n', hn, hpre, hstop⟩ := readsAsFrame_or_stops M L
  · rw [decodeFn_of_frame hframe] at h
    cases h
  rw [decodeFn_of_stop hpre hn hstop] at h
  obtain rfl : n' = n := congrArg Prod.snd h
  have htaken : ∀ k, k < n' → ∃ p y, L[k]? = some p ∧ M p y = true ∧ y ∈ candidatesAt k := by
    intro k hk
    obtain ⟨y, hy⟩ := (symbolAt_isSome (m := readMessage M L)).mpr (show k ≤ 26 by omega)
    obtain ⟨p, hp, hmatch, hmem⟩ := takeAt_some ((hpre k hk).trans hy)
    exact ⟨p, y, hp, hmatch, hmem⟩
  refine ⟨by omega, htaken, (takeAt_none hstop).imp_left fun hlen => ?_⟩
  refine Nat.le_antisymm (Nat.le_of_not_lt fun hlt => ?_) hlen
  obtain ⟨p, y, hp, -⟩ := htaken L.length hlt
  simp at hp

end Sys2Proof.Machine
end

section
/-! PROOFS. The decoder's run is the decode function (R152): while the pulses read as a frame, DEC's elements say
how much of that frame has arrived, and its next step compares the next pulse with the next position's candidates. -/

namespace Sys2Proof.Machine

/-! ### The decoder in the course of a frame -/

/-- The state in which DEC takes the pulse at each position of the grammar, and the state after the last (R76, R145 to
R150). -/
def stateAt (n : Nat) : DecState :=
  if n = 0 then .awaitSync
  else if n ≤ 5 then .readDevice
  else if n ≤ 20 then .readGroup
  else if n ≤ 24 then .readPayload
  else if n = 25 then .awaitStop1
  else if n = 26 then .awaitStop2
  else .accepted

/-- The index inside the field at each position of the grammar (R30). -/
def indexAt (n : Nat) : BitVec 4 :=
  if n ≤ 5 then BitVec.ofNat 4 (n - 1)
  else if n ≤ 20 then BitVec.ofNat 4 (n - 6)
  else if n ≤ 24 then BitVec.ofNat 4 (n - 21)
  else 0#4

/-- DEC's elements when the first `n` pulses of the frame of `m` have been consumed: each accumulator holds the bits of
its field that have arrived (R146 to R148). -/
def Dec.afterPulses (m : MsgWord) (n : Nat) : Dec where
  state := stateAt n
  i := indexAt n
  accDevice := deviceField m >>> (6 - n)
  accGroup := groupField m >>> (21 - n)
  accPayload := payloadField m >>> (25 - n)
  consumed := BitVec.ofNat 6 n
  msg := if n = 27 then m else 0#24

theorem candidates_stateAt {n : Nat} (hn : n ≤ 26) : candidates (stateAt n) = candidatesAt n := by
  interval_cases n <;> rfl

theorem stateAt_busy {n : Nat} (hn : n ≤ 26) : (stateAt n).busy = true := by
  interval_cases n <;> rfl

theorem indexAt_le_lastIndex {n : Nat} (hn : n ≤ 26) : (indexAt n).toNat ≤ (stateAt n).lastIndex := by
  interval_cases n <;> decide

/-- The positions of the device field, and how DEC leaves each (R146). -/
theorem stateAt_device {n : Nat} (h1 : 1 ≤ n) (h2 : n ≤ 5) :
    stateAt n = .readDevice ∧ (if indexAt n = 4#4 then .readGroup else .readDevice) = stateAt (n + 1) ∧
    (if indexAt n = 4#4 then 0#4 else indexAt n + 1#4) = indexAt (n + 1) := by
  interval_cases n <;> decide

/-- The positions of the group field, and how DEC leaves each (R147). -/
theorem stateAt_group {n : Nat} (h1 : 6 ≤ n) (h2 : n ≤ 20) :
    stateAt n = .readGroup ∧ (if indexAt n = 14#4 then .readPayload else .readGroup) = stateAt (n + 1) ∧
    (if indexAt n = 14#4 then 0#4 else indexAt n + 1#4) = indexAt (n + 1) := by
  interval_cases n <;> decide

/-- The positions of the payload field, and how DEC leaves each (R148). -/
theorem stateAt_payload {n : Nat} (h1 : 21 ≤ n) (h2 : n ≤ 24) :
    stateAt n = .readPayload ∧ (if indexAt n = 3#4 then .awaitStop1 else .readPayload) = stateAt (n + 1) ∧
    (if indexAt n = 3#4 then 0#4 else indexAt n + 1#4) = indexAt (n + 1) := by
  interval_cases n <;> decide

/-- The bit that arrives next joins those of its field that have arrived. -/
theorem shiftIn_ushiftRight {w : Nat} (v : BitVec w) {a n : Nat} (h : n < a) :
    shiftIn (v >>> (a - n)) (v.getLsbD (a - (n + 1))) = v >>> (a - (n + 1)) := by
  obtain ⟨j, rfl⟩ : ∃ j, a = j + (n + 1) := ⟨a - (n + 1), by omega⟩
  rw [Nat.add_sub_cancel, show j + (n + 1) - n = j + 1 by omega, shiftIn_eq_ofNat]
  apply BitVec.eq_of_toNat_eq
  have hbit : (v.getLsbD j).toNat = v.toNat >>> j % 2 := by
    rw [BitVec.getLsbD, Nat.toNat_testBit, Nat.shiftRight_eq_div_pow]
  have hor := Nat.shiftLeft_add_eq_or_of_lt (i := 1) (Bool.toNat_lt (v.getLsbD j)) (v.toNat >>> (j + 1))
  rw [BitVec.toNat_ofNat, BitVec.toNat_ushiftRight, BitVec.toNat_ushiftRight, ← hor, hbit, Nat.shiftRight_succ,
    Nat.shiftLeft_eq, show v.toNat >>> j / 2 * 2 ^ 1 + v.toNat >>> j % 2 = v.toNat >>> j by omega]
  exact Nat.mod_eq_of_lt (lt_of_le_of_lt (Nat.shiftRight_le _ _) v.isLt)

/-- Outside its field's positions an accumulator stays: nothing has arrived yet, or everything has. -/
theorem ushiftRight_stays {w : Nat} (v : BitVec w) {a n : Nat} (h : n + 1 + w ≤ a ∨ a ≤ n) :
    v >>> (a - n) = v >>> (a - (n + 1)) := by
  obtain h | h := h
  · rw [BitVec.ushiftRight_eq_zero (by omega), BitVec.ushiftRight_eq_zero (by omega)]
  · rw [show a - n = a - (n + 1) by omega]

/-- The bit-unit at position `n` carries the field's bit that comes next (R76, R80): the field stands at bit `i` of the
message word, and its last pulse before position `a`. -/
theorem field_bit_arrives (m : MsgWord) {i w a n : Nat} (ha : a + i = 25) (h1 : n < a) (h2 : a ≤ n + w) :
    shiftIn (m.extractLsb' i w >>> (a - n)) (m.getLsbD (24 - n)) = m.extractLsb' i w >>> (a - (n + 1)) := by
  have hbit : m.getLsbD (24 - n) = (m.extractLsb' i w).getLsbD (a - (n + 1)) := by
    rw [BitVec.getLsbD_extractLsb', show i + (a - (n + 1)) = 24 - n by omega, decide_eq_true (by omega), Bool.true_and]
  rw [hbit, shiftIn_ushiftRight _ h1]

/-- Two decoders with the same elements are equal. -/
theorem Dec.eq_of_fields {d e : Dec} (hs : d.state = e.state) (hi : d.i = e.i) (hdev : d.accDevice = e.accDevice)
    (hgrp : d.accGroup = e.accGroup) (hpay : d.accPayload = e.accPayload) (hcount : d.consumed = e.consumed)
    (hmsg : d.msg = e.msg) : d = e := by
  cases d
  cases e
  rw [Dec.mk.injEq]
  exact ⟨hs, hi, hdev, hgrp, hpay, hcount, hmsg⟩

theorem Dec.afterPulses_zero (m : MsgWord) : Dec.afterPulses m 0 = { Dec.reset with state := .awaitSync } :=
  Dec.eq_of_fields rfl rfl (BitVec.ushiftRight_eq_zero (by decide)) (BitVec.ushiftRight_eq_zero (by decide))
    (BitVec.ushiftRight_eq_zero (by decide)) rfl rfl

theorem Dec.afterPulses_msg {m : MsgWord} {n : Nat} (hn : n ≤ 26) : (Dec.afterPulses m n).msg = 0#24 :=
  if_neg (by omega)

/-- The frame's symbol at position `n` takes DEC from that position to the next (R145 to R150). -/
theorem Dec.advance_afterPulses {m : MsgWord} {n : Nat} {y : Symbol} (hy : symbolAt m n = some y) :
    { Dec.afterPulses m n with consumed := (Dec.afterPulses m n).consumed + 1#6 }.advance y =
      Dec.afterPulses m (n + 1) := by
  have hcount : BitVec.ofNat 6 n + 1#6 = BitVec.ofNat 6 (n + 1) := (BitVec.ofNat_add n 1).symm
  have hmsg (hn : n ≤ 25) : (Dec.afterPulses m n).msg = (Dec.afterPulses m (n + 1)).msg := by
    rw [Dec.afterPulses_msg (by omega), Dec.afterPulses_msg (by omega)]
  obtain ⟨rfl, rfl⟩ | ⟨h1, h24, rfl⟩ | ⟨h25, h26, rfl⟩ := symbolAt_eq_some_iff.mp hy
  · exact Dec.eq_of_fields rfl rfl (ushiftRight_stays _ (by decide)) (ushiftRight_stays _ (by decide))
      (ushiftRight_stays _ (by decide)) rfl rfl
  · obtain h5 | ⟨h6, h20⟩ | h21 : n ≤ 5 ∨ (6 ≤ n ∧ n ≤ 20) ∨ 21 ≤ n := by omega
    · obtain ⟨hs, hnext, hi⟩ := stateAt_device h1 h5
      rw [Dec.advance_readDevice hs, bitSym_bit]
      exact Dec.eq_of_fields hnext hi (field_bit_arrives m rfl (by omega) (by omega)) (ushiftRight_stays _ (by omega))
        (ushiftRight_stays _ (by omega)) hcount (hmsg (by omega))
    · obtain ⟨hs, hnext, hi⟩ := stateAt_group h6 h20
      rw [Dec.advance_readGroup hs, bitSym_bit]
      exact Dec.eq_of_fields hnext hi (ushiftRight_stays _ (by omega)) (field_bit_arrives m rfl (by omega) (by omega))
        (ushiftRight_stays _ (by omega)) hcount (hmsg (by omega))
    · obtain ⟨hs, hnext, hi⟩ := stateAt_payload h21 h24
      rw [Dec.advance_readPayload hs, bitSym_bit]
      exact Dec.eq_of_fields hnext hi (ushiftRight_stays _ (by omega)) (ushiftRight_stays _ (by omega))
        (field_bit_arrives m rfl (by omega) (by omega)) hcount (hmsg (by omega))
  · obtain rfl | rfl : n = 25 ∨ n = 26 := by omega
    · rfl
    · exact Dec.eq_of_fields rfl rfl rfl rfl rfl rfl (packMsg_fields m)

/-! ### The steps of a decode -/

/-- The source's head is the pulse at the position reached. -/
theorem drop_eq_cons {L : List Pulse} {n : Nat} {p : Pulse} (h : L[n]? = some p) : L.drop n = p :: L.drop (n + 1) := by
  obtain ⟨hlt, rfl⟩ := List.getElem?_eq_some_iff.mp h
  exact List.drop_eq_getElem_cons hlt

section Run

variable {M : Matcher} {L : List Pulse} {m : MsgWord} {n : Nat} {s : State} {ts : List Turn}

/-- A pulse taken as the frame's next symbol brings DEC to the next position. -/
theorem decStep_of_takeAt {y : Symbol} (hdec : s.dec = Dec.afterPulses m n) (hq : s.srcQueue = L.drop n)
    (hy : symbolAt m n = some y) (htake : takeAt M L n (candidatesAt n) = some y) :
    decStep M s = .next { s with dec := Dec.afterPulses m (n + 1), srcQueue := L.drop (n + 1) } := by
  have hn : n ≤ 26 := symbolAt_isSome.mp ⟨y, hy⟩
  obtain ⟨p, hp, -, -⟩ := takeAt_some htake
  rw [drop_eq_cons hp] at hq
  have hc : classify M s.dec.state p = some y := by
    rw [takeAt, hp] at htake
    rw [hdec, classify]
    exact (congrArg (List.find? (M p)) (candidates_stateAt hn)).trans htake
  have hi : s.dec.i.toNat ≤ s.dec.state.lastIndex := by rw [hdec]; exact indexAt_le_lastIndex hn
  exact (decStep_of_classify hq hc).trans (takeSymbol_of_cons hq hi y (hdec ▸ Dec.advance_afterPulses hy))

/-- Where the train stops being a frame, by a pulse that is none or by its end, DEC rejects (R143, R190). -/
theorem decStep_of_stop (hdec : s.dec = Dec.afterPulses m n) (hq : s.srcQueue = L.drop n) (hclosed : s.srcClosed = true)
    (hn : n ≤ 26) (hstop : takeAt M L n (candidatesAt n) = none) : decStep M s = .next (frameMismatch s) := by
  have hb : s.dec.state.busy = true := by rw [hdec]; exact stateAt_busy hn
  obtain hlen | ⟨p, hp, hmis⟩ := takeAt_none hstop
  · exact decStep_of_exhausted hb (by rw [hq, List.drop_eq_nil_of_le hlen]) hclosed
  · refine decStep_of_cons_no_match hb (hq.trans (drop_eq_cons hp)) ?_
    rwa [hdec, Dec.afterPulses, candidates_stateAt hn]

/-- As long as the pulses read as a frame, DEC's turns consume them one by one. -/
theorem runWith_readsAsFrame (h : ReadsAsFrame M L m n) (hn : n ≤ 27) (hdec : s.dec = Dec.afterPulses m 0)
    (hq : s.srcQueue = L) (hts : s.schedule = List.replicate n .dec ++ ts) :
    runWith M n s = .next { s with schedule := ts, dec := Dec.afterPulses m n, srcQueue := L.drop n } := by
  induction n generalizing ts with
  | zero =>
    rw [← hdec, List.drop_zero, ← hq, ← show s.schedule = ts from hts]
    rfl
  | succ n ih =>
    obtain ⟨y, hy⟩ := (symbolAt_isSome (m := m)).mpr (show n ≤ 26 by omega)
    rw [List.replicate_succ', List.append_assoc] at hts
    rw [runWith_add, ih (fun k hk => h k (by omega)) (by omega) hts, andThen_next]
    refine runWith_succ_of_next (n := 0) ((stepWith_cons rfl).trans ?_)
    exact decStep_of_takeAt rfl rfl hy ((h n (by omega)).trans hy)

/-- Outside the busy states DEC's turns pass without effect (R151). -/
theorem runWith_not_busy (hb : ¬ s.dec.state.busy = true) (hts : s.schedule = List.replicate n .dec ++ ts) :
    runWith M n s = .next { s with schedule := ts } := by
  induction n generalizing s with
  | zero =>
    rw [← show s.schedule = ts from hts]
    rfl
  | succ n ih =>
    have hstep : stepWith M s = .next (setSchedule s (List.replicate n .dec ++ ts)) :=
      (stepWith_cons hts).trans (decStep_of_not_busy hb)
    exact (runWith_succ_of_next hstep).trans (ih hb rfl)

/-- From the position where the train stops being a frame, DEC's turns are the rejection and then nothing. -/
theorem runWith_rejects {r : Nat} (hdec : s.dec = Dec.afterPulses m n) (hq : s.srcQueue = L.drop n)
    (hclosed : s.srcClosed = true) (hn : n ≤ 26) (hstop : takeAt M L n (candidatesAt n) = none)
    (hts : s.schedule = List.replicate (r + 1) .dec ++ ts) :
    runWith M (r + 1) s = .next (setSchedule (frameMismatch s) ts) := by
  have hstep : stepWith M s = .next (frameMismatch (setSchedule s (List.replicate r .dec ++ ts))) :=
    (stepWith_cons hts).trans (decStep_of_stop (s := setSchedule s _) hdec hq hclosed hn hstop)
  exact (runWith_succ_of_next hstep).trans (runWith_not_busy Bool.false_ne_true rfl)

/-- A train that stops being a frame at position `n` is rejected there, and nothing more is consumed. -/
theorem runWith_stops (h : ReadsAsFrame M L m n) (hn : n ≤ 26) (hstop : takeAt M L n (candidatesAt n) = none)
    (hclosed : s.srcClosed = true) (hdec : s.dec = Dec.afterPulses m 0) (hq : s.srcQueue = L)
    (hts : s.schedule = List.replicate 27 .dec ++ ts) :
    runWith M 27 s = .next { s with
      schedule := ts
      dec := { Dec.afterPulses m n with state := .rejected, i := 0#4 }
      srcQueue := L.drop n } := by
  obtain ⟨r, hr⟩ : ∃ r, 27 = n + (r + 1) := ⟨26 - n, by omega⟩
  rw [hr, List.replicate_add, List.append_assoc] at hts
  rw [hr, runWith_add, runWith_readsAsFrame h (by omega) hdec hq hts, andThen_next]
  exact runWith_rejects rfl rfl hclosed hn hstop rfl

end Run

/-! ### The whole decode -/

/-- A closed source stays closed through any run (R37). -/
theorem runWith_keeps_closed {M : Matcher} {n : Nat} {s u : State} (hclosed : s.srcClosed = true)
    (h : runWith M n s = .next u) : u.srcClosed = true := by
  induction n generalizing s with
  | zero => cases h; exact hclosed
  | succ n ih =>
    obtain ⟨t, hstep, hrun⟩ := andThen_eq_next.mp h
    obtain ⟨-, -, hkeep⟩ := interfacesAreFifo M s t hstep
    exact ih (hkeep hclosed) hrun

/-- The host's write of DECODE while DEC is not busy starts the decode at position 0 (R88, R140). -/
theorem stepWith_decodeWord {M : Matcher} {s : State} {hp : List HostLine} {ts : List Turn}
    (hb : s.dec.state.busy = false) (hline : s.hostProg = .write (.off 0x00) 4 0x20000000#32 :: hp)
    (hts : s.schedule = .host :: ts) :
    stepWith M s = .next (startDecode (setHostProg (setSchedule s ts) hp)) := by
  rw [stepWith_cons hts, takeTurn, hostStep_command (s := setSchedule s ts) hline (i := .decode) rfl]
  exact exec_decode_of_not_busy hb

/-- Settles O44: a frame is consumed to its end, any other train up to its first pulse that is no candidate; decoder and
decode function agree on both. -/
theorem decoderComputesDecodeFunction : Obligations.DecoderComputesDecodeFunction := by
  unfold Obligations.DecoderComputesDecodeFunction
  intro M s hp ts hb hclosed hline hts
  have hstart := stepWith_decodeWord (M := M) hb hline hts
  have hnoHold : ∀ n u, n ≤ 28 → runWith M n s = .next u → srcHead u ≠ .wait := by
    intro n u _ hu hwait
    obtain ⟨-, hopen⟩ := srcHead_wait.mp hwait
    simp [runWith_keeps_closed hclosed hu] at hopen
  rw [runWith_succ_of_next hstart]
  obtain hframe | ⟨n, hn, hpre, hstop⟩ := readsAsFrame_or_stops M s.srcQueue
  · refine ⟨Dec.afterPulses (readMessage M s.srcQueue) 27, ?_, ?_, ?_, ?_, hnoHold⟩
    · exact runWith_readsAsFrame hframe le_rfl (Dec.afterPulses_zero _).symm rfl rfl
    · rw [decodeFn_of_frame hframe]
      rfl
    · rw [decodeFn_of_frame hframe]
      rintro m ⟨⟩
      exact ⟨rfl, rfl, rfl⟩
    · rw [decodeFn_of_frame hframe]
      exact fun h => absurd h (Option.some_ne_none _)
  · have hcount := frameIndex_toNat hn
    refine ⟨{ Dec.afterPulses (readMessage M s.srcQueue) n with state := .rejected, i := 0#4 }, ?_, ?_, ?_, ?_,
      hnoHold⟩
    · simp only [Dec.afterPulses, hcount]
      exact runWith_stops hpre hn hstop hclosed (Dec.afterPulses_zero _).symm rfl rfl
    · rw [decodeFn_of_stop hpre hn hstop]
      exact hcount
    · rw [decodeFn_of_stop hpre hn hstop]
      exact fun m h => absurd h.symm (Option.some_ne_none m)
    · exact fun _ => ⟨rfl, Dec.afterPulses_msg hn⟩

end Sys2Proof.Machine
end

section
/-! PROOFS. Control: what a write to `CMD` does, word by word (R170 to R174), the host's accesses to the registers (R176,
R177), and messages: when two are equal (R181) and how the host takes one from a decode (R180). -/

namespace Sys2Proof

open Machine

/-! ### Messages -/

theorem Message.eq_iff_fields (a b : Message) :
    a = b ↔ a.device = b.device ∧ a.group = b.group ∧ a.payload = b.payload := by
  cases a
  cases b
  rw [Message.mk.injEq]

/-- The fields of a message's word are the message's (R80). -/
@[simp] theorem Message.ofWord_word (x : Message) : Message.ofWord x.word = x := by
  rw [Message.ofWord, Message.word, deviceField_packMsg, groupField_packMsg, payloadField_packMsg]

theorem Message.word_inj {a b : Message} : a.word = b.word ↔ a = b :=
  (Function.LeftInverse.injective Message.ofWord_word).eq_iff

/-- Settles O9: a message is recovered from its word, so equal words are equal messages; 32 and 0 agree modulo 2^5. -/
theorem messageEquality : Obligations.MessageEquality := by
  unfold Obligations.MessageEquality
  exact ⟨fun a b => ⟨Message.eq_iff_fields a b, Message.word_inj.symm⟩, Message.ofWord_word ⟨5#5, 100#15, 3#4⟩,
    truncatedMsg_congr rfl rfl rfl⟩

/-! ### The dispatch of a command word -/

/-- The reserved words of R83 in the order of R174: with `OP` and `RSV` in range, only ENCODE may have an `ARG`. -/
theorem decodeCommand_error_iff_dispatch (w : Word) :
    (∃ e, decodeCommand w = .error e) ↔
      4 ≤ (opField w).toNat ∨ rsvField w ≠ 0#4 ∨ (opField w ≠ 1#4 ∧ argField w ≠ 0#24) := by
  rw [decodeCommand_error_iff]
  by_cases hop : 4 ≤ (opField w).toNat
  · simp only [hop, true_or]
  · obtain hop | hop | hop | hop := op_cases_of_lt (not_le.mp hop) <;> simp [hop]

namespace Machine

/-- A write to `CMD`, by the fields of the word: at most one test holds, and a word that fails all is CLRERR (R174). -/
theorem performCommand_dispatch (w : Word) (s : State) :
    performCommand w s =
      if 4 ≤ (opField w).toNat ∨ rsvField w ≠ 0#4 ∨ (opField w ≠ 1#4 ∧ argField w ≠ 0#24) then .next (raiseIll s)
      else if opField w = 0#4 then exec .nop s
      else if opField w = 1#4 then
        exec (.encode (deviceField (argField w)) (groupField (argField w)) (payloadField (argField w))) s
      else if opField w = 2#4 then exec .decode s
      else exec .clrerr s := by
  have hreserved := decodeCommand_error_iff_dispatch w
  cases hw : decodeCommand w with
  | error e => rw [if_pos (hreserved.mp ⟨e, hw⟩), performCommand_of_error hw]
  | ok i =>
    rw [if_neg (hreserved.not.mp (by simp [hw])), performCommand_of_ok hw]
    obtain ⟨hrsv, ⟨hop, -, rfl⟩ | ⟨hop, -⟩ | ⟨hop, -, rfl⟩ | ⟨hop, -, rfl⟩⟩ := decodeCommand_ok_fields hw
    · simp [hop]
    · rw [decodeCommand_of_op_one hop hrsv] at hw
      simp [hop, ← Except.ok.inj hw]
    · simp [hop]
    · simp [hop]

/-- Settles O21: the dispatch by the word's fields, with ENCODE's operands read off the whole word. -/
theorem dispatchOrder : Obligations.DispatchOrder := by
  unfold Obligations.DispatchOrder
  intro w s
  obtain ⟨hdevice, hgroup, hpayload⟩ := argField_operands w
  rw [← hdevice, ← hgroup, ← hpayload]
  exact performCommand_dispatch w s

/-! ### NOP, CLRERR, and commands to a busy unit -/

/-- Settles O16: NOP answers the state it is given, and no register shows the host's program. -/
theorem nopChangesNothing : Obligations.NopChangesNothing := by
  unfold Obligations.NopChangesNothing
  exact fun s => ⟨rfl, performCommand_of_ok (i := .nop) rfl s,
    fun rest hline => ⟨hostStep_command (i := .nop) hline rfl, fun _ => rfl⟩⟩

theorem errReg_clearErr (s : State) : errReg (clearErr s) = 0#32 := by
  rw [errReg, clearErr_err]
  rfl

/-- Settles O19: the instruction and its word both answer `clearErr`. -/
theorem clrerrCommand : Obligations.ClrerrCommand := by
  unfold Obligations.ClrerrCommand
  exact fun s => ⟨clearErr s, rfl, performCommand_of_ok (i := .clrerr) rfl s, rfl, errReg_clearErr s⟩

/-- Settles O20: each command looks at its own unit only, and writes the other's elements in neither branch. -/
theorem busyCommandsAreDropped : Obligations.BusyCommandsAreDropped := by
  unfold Obligations.BusyCommandsAreDropped
  intro s d g p
  exact ⟨fun henc => exec_encode_of_not_idle henc d g p, exec_decode_of_busy,
    fun henc _ => ⟨_, exec_encode_of_idle henc d g p, rfl, rfl, rfl, rfl⟩,
    fun hdec _ => ⟨_, exec_decode_of_not_busy hdec, rfl, rfl, rfl⟩⟩

/-! ### Reading and writing a register -/

/-- Every register reads 0 after reset (R39). -/
theorem regValue_reset (off : Nat) : regValue State.reset off = 0#32 := by
  unfold regValue
  split_ifs <;> rfl

/-- Settles O22: an admitted read returns the register; no offset of `CMD` or an unmapped one has a register. -/
theorem registerRead : Obligations.RegisterRead := by
  unfold Obligations.RegisterRead
  refine ⟨fun s off rest h4 hoff hline => ?_, fun s => ⟨rfl, rfl, rfl⟩, regValue_reset⟩
  rw [hostStep_read hline, guardAccess_of_admitted h4 hoff]
  rfl

theorem regWrite_cmd (v : Word) (s : State) : regWrite 0x00 v s = performCommand v s := if_pos rfl

theorem regWrite_of_ne_cmd {off : Nat} (h : off ≠ 0x00) (v : Word) (s : State) : regWrite off v s = .next s := if_neg h

/-- The host's write at a multiple of 4 in the window is answered by the register (R53, R177). -/
theorem hostStep_write_admitted {s : State} {off : Nat} {v : Word} {rest : List HostLine} (h4 : off % 4 = 0)
    (hoff : off ≤ 0x1C) (hline : s.hostProg = .write (.off off) 4 v :: rest) :
    hostStep s = regWrite off v (setHostProg s rest) := by
  rw [hostStep_write hline, guardAccess_of_admitted h4 hoff]
  rfl

/-- Settles O24: an admitted write is a command exactly at `CMD`. -/
theorem registerWrite : Obligations.RegisterWrite := by
  unfold Obligations.RegisterWrite
  intro s off v rest hline
  refine ⟨fun hcmd => ?_, fun h4 hlo hhi => ?_⟩
  · subst hcmd
    exact (hostStep_write_admitted rfl (by decide) hline).trans (regWrite_cmd v _)
  · exact (hostStep_write_admitted h4 hhi hline).trans (regWrite_of_ne_cmd (by omega) v _)

/-! ### The result of a decode -/

/-- `DEC_MSG` shows the message word (R44). -/
theorem argField_decMsgReg (s : State) : argField (decMsgReg s) = s.dec.msg := by
  have hmsg := s.dec.msg.isLt
  apply BitVec.eq_of_toNat_eq
  rw [argField_toNat, decMsgReg, append_toNat_shift, BitVec.toNat_ofNat]
  omega

theorem readOutcome_of_accept {status : Word} (h : status.getLsbD 18 = true) (msg : Word) :
    readOutcome status msg = some (Message.ofWord (argField msg)) := by
  rw [readOutcome, if_pos h, argField, BitVec.setWidth_eq_extractLsb' (by decide)]

theorem readOutcome_of_not_accept {status : Word} (h : status.getLsbD 18 = false) (msg : Word) :
    readOutcome status msg = none :=
  if_neg (by rw [h]; decide)

/-- `ACCEPT` in `DEC_STATUS` (R43). -/
theorem decStatusReg_accept (s : State) : (decStatusReg s).getLsbD 18 = s.dec.state.accept := by
  obtain ⟨-, -, -, -, -, -, haccept, -⟩ := decStatusReg_fields s
  exact haccept

/-- An accepted decode's message is packed from the fields received (R150). -/
theorem Dec.msg_of_accepted {d : Dec} (h : d.legal) (hs : d.state = .accepted) :
    d.msg = packMsg d.accDevice d.accGroup d.accPayload := by
  obtain ⟨-, -, -, -, -, hmsg⟩ := h
  rwa [if_pos hs] at hmsg

/-- Settles O58: `ACCEPT` tells the two terminal states apart, and legality says what `DEC_MSG` shows in each. -/
theorem decodeResultRead : Obligations.DecodeResultRead := by
  unfold Obligations.DecodeResultRead
  intro s hl _
  rw [regValue_decStatus, regValue_decMsg]
  refine ⟨fun hs => ?_, fun hs => ?_⟩
  · have haccept : (decStatusReg s).getLsbD 18 = true := by rw [decStatusReg_accept, hs]; rfl
    rw [readOutcome_of_accept haccept]
    constructor
    · obtain ⟨hdevice, hgroup, hpayload⟩ := argField_operands (decMsgReg s)
      rw [Message.ofWord, hdevice, hgroup, hpayload]
    · rw [argField_decMsgReg, Dec.msg_of_accepted hl.2 hs]
      exact congrArg some (Message.ofWord_word ⟨_, _, _⟩)
  · have haccept : (decStatusReg s).getLsbD 18 = false := by rw [decStatusReg_accept, hs]; rfl
    refine ⟨readOutcome_of_not_accept haccept _, ?_⟩
    rw [decMsgReg, Dec.msg_eq_zero hl.2 (by rw [hs]; decide)]
    rfl

end Machine

end Sys2Proof
end

section
/-! PROOFS. Exceptions: what raising FrameMismatch leaves for the host to see (R190). -/

namespace Sys2Proof.Machine

/-- `STATE` and `CONSUMED` after a rejection: the count keeps the position of the mismatch (R43, R190). -/
theorem decStatusReg_frameMismatch (s : State) :
    (decStatusReg (frameMismatch s)).extractLsb' 0 4 = 8#4 ∧
    (decStatusReg (frameMismatch s)).extractLsb' 8 6 = s.dec.consumed := by
  obtain ⟨hcode, -, hcount, -⟩ := decStatusReg_fields (frameMismatch s)
  exact ⟨hcode, hcount⟩

/-- Settles O40: the end of the train and a head that is no candidate both raise FrameMismatch, which keeps a decoder
legal, and a legal decoder that has rejected shows no message. -/
theorem frameMismatchEffect : Obligations.FrameMismatchEffect := by
  unfold Obligations.FrameMismatchEffect
  intro M s hb hbad
  have hstep : decStep M s = .next (frameMismatch s) := by
    obtain ⟨hq, hclosed⟩ | ⟨p, q, hq, hc⟩ := hbad
    · exact decStep_of_exhausted hb hq hclosed
    · exact decStep_of_cons_no_match hb hq hc
  have hrej : (frameMismatch s).dec.state = .rejected := rfl
  obtain ⟨hcode, hcount⟩ := decStatusReg_frameMismatch s
  exact ⟨frameMismatch s, hstep, rfl, hcode, hcount,
    fun hl => Dec.msg_eq_zero (frameMismatch_legal hl.2 hb) (by rw [hrej]; decide)⟩

end Sys2Proof.Machine
end

section
/-! PROOFS. The reset event (R210, R211), the end of a run (R222) and the nominal air time of a frame (R221). -/

namespace Sys2Proof

open Machine

/-! ### The air time of a frame -/

/-- The frame symbol by symbol (R76): the bit-units are those of the message word, most significant bit first. -/
theorem frame_eq_msbFirst (m : MsgWord) : frame m = .sync :: ((msbFirst m).map bitSym ++ [.stop, .stop]) := rfl

/-- The symbols that carry a list of bits last as long as its ones and its zeros do (R221). -/
theorem airTime_bitSyms (bits : List Bool) :
    ((bits.map bitSym).map symbolAirTime).sum = 1750 * bits.count true + 1770 * bits.count false := by
  induction bits with
  | nil => rfl
  | cons b bits ih =>
    have hb : symbolAirTime (bitSym b) = if b then 1750 else 1770 := by cases b <;> rfl
    rw [List.map_cons, List.map_cons, List.sum_cons, ih, hb]
    cases b with
    | true => rw [if_pos rfl, List.count_cons_self, List.count_cons_of_ne (by decide)]; omega
    | false => rw [if_neg (by decide), List.count_cons_self, List.count_cons_of_ne (by decide)]; omega

/-- The order in which the bits are read does not matter to their count. -/
theorem count_true_msbFirst (m : MsgWord) : (msbFirst m).count true = onesCount m := by
  have hrev : msbFirst m = ((List.range 24).reverse).map m.getLsbD := by
    rw [List.range_eq_range', List.reverse_range', List.map_map]
    rfl
  rw [hrev, onesCount, ← List.countP_eq_length_filter, List.count, List.countP_map, List.countP_reverse]
  exact List.countP_congr fun j _ => by simp

theorem count_msbFirst (m : MsgWord) : (msbFirst m).count false + onesCount m = 24 := by
  rw [← count_true_msbFirst, List.count_false_add_count_true]
  rfl

/-- A frame lasts as long as its sync, its two stops and its bits (R221). -/
theorem airTime_eq (m : MsgWord) : airTime m = 14130 + 1750 * onesCount m + 1770 * (24 - onesCount m) := by
  have hsum : airTime m = 12330 + (((msbFirst m).map bitSym).map symbolAirTime).sum + (900 + 900) := by
    rw [airTime, frame_eq_msbFirst, List.map_cons, List.map_append, List.sum_cons, List.sum_append, ← Nat.add_assoc]
    rfl
  have hcount := count_msbFirst m
  rw [hsum, airTime_bitSyms, count_true_msbFirst]
  omega

theorem onesCount_le (m : MsgWord) : onesCount m ≤ 24 := by
  have hcount := count_msbFirst m
  omega

/-- Settles O57: the air time falls by 20 with every one bit, so the two bounds are those of 24 and of 0 one bits.
Protected, since the air time itself has the same name. -/
protected theorem airTime : Obligations.AirTime := by
  unfold Obligations.AirTime
  have hall : onesCount 0xFFFFFF#24 = 24 := by decide
  have hnone : onesCount 0#24 = 0 := by decide
  have hexample : onesCount 0x280643#24 = 7 := by decide
  refine ⟨rfl, rfl, rfl, rfl, fun m => ?_, by rw [airTime_eq, hall], by rw [airTime_eq, hnone], hexample,
    by rw [airTime_eq, hexample]⟩
  have hle := onesCount_le m
  have hair := airTime_eq m
  exact ⟨hair, hle, by omega, by omega⟩

namespace Machine

/-! ### The end of a run -/

theorem DecState.not_busy_iff (st : DecState) : st.busy = false ↔ st = .idle ∨ st = .accepted ∨ st = .rejected := by
  cases st <;> decide

/-- The three conditions of R222, unit by unit and line by line. -/
theorem State.runOver_iff (s : State) :
    s.runOver = true ↔ s.enc.phase = .idle ∧ s.dec.state.busy = false ∧ ∀ l ∈ s.hostProg, ¬ l.isCommand = true := by
  have henc : (!s.enc.busy) = true ↔ s.enc.phase = .idle := by
    rw [Bool.not_eq_true', ← Bool.not_eq_true, Enc.busy_iff, not_not]
  have hprog : (!s.hostProg.any HostLine.isCommand) = true ↔ ∀ l ∈ s.hostProg, ¬ l.isCommand = true := by simp
  rw [State.runOver, Bool.and_eq_true, Bool.and_eq_true, henc, hprog, Bool.not_eq_true', and_assoc]

/-- No line is a command exactly when no 32-bit write goes to `CMD` (log 21). -/
theorem no_command_iff (prog : List HostLine) :
    (∀ l ∈ prog, ¬ l.isCommand = true) ↔
      ∀ place v, HostLine.write place 4 v ∈ prog → place.inWindow = true → place.offset ≠ 0x00 := by
  constructor
  · intro h place v hmem hwin hoff
    exact h _ hmem (isCommand_iff.mpr ⟨place, v, rfl, hwin, hoff⟩)
  · intro h l hmem hcmd
    obtain ⟨place, v, rfl, hwin, hoff⟩ := isCommand_iff.mp hcmd
    exact h place v hmem hwin hoff

theorem SameBlock.observe {s t : State} (h : SameBlock s t) : t.observe = s.observe := by
  rw [State.observe, State.observe, h.sinkTrace, h.dec, h.err, h.srcQueue]

/-- A run stays over while the units stay as they are and the host gets no new line. -/
theorem SameBlock.runOver {s t : State} (h : SameBlock s t) (hprog : t.hostProg ⊆ s.hostProg)
    (hs : s.runOver = true) : t.runOver = true := by
  obtain ⟨hidle, hbusy, hlines⟩ := s.runOver_iff.mp hs
  exact t.runOver_iff.mpr ⟨by rw [h.enc, hidle], by rw [h.dec, hbusy], fun l hl => hlines l (hprog hl)⟩

theorem SameBlock.refl (s : State) : SameBlock s s := ⟨rfl, rfl, rfl, rfl, rfl, rfl⟩

/-- With no command left the host's turn leaves the block alone (R176, R177) and uses up its own lines. -/
theorem hostStep_of_no_command {s t : State} (hlines : ∀ l ∈ s.hostProg, ¬ l.isCommand = true)
    (h : hostStep s = .next t) : SameBlock s t ∧ t.hostProg ⊆ s.hostProg := by
  have hrest {l : HostLine} {rest : List HostLine} (hp : s.hostProg = l :: rest) : rest ⊆ s.hostProg :=
    hp ▸ List.subset_cons_self l rest
  obtain ⟨-, rfl⟩ | ⟨place, v, rest, hp, hwin, ⟨hoff, -⟩ | ⟨-, rfl⟩⟩ | ⟨place, rest, hp, -, rfl⟩ |
    ⟨off, mask, v, rest, hp, -, rfl⟩ := hostStep_next h
  · exact ⟨.refl _, List.Subset.refl _⟩
  · exact absurd (isCommand_iff.mpr ⟨place, v, rfl, hwin, hoff⟩) (hlines _ (hp ▸ List.mem_cons_self))
  · exact ⟨⟨rfl, rfl, rfl, rfl, rfl, rfl⟩, hrest hp⟩
  · exact ⟨⟨rfl, rfl, rfl, rfl, rfl, rfl⟩, hrest hp⟩
  · split
    · exact ⟨⟨rfl, rfl, rfl, rfl, rfl, rfl⟩, hrest hp⟩
    · exact ⟨⟨rfl, rfl, rfl, rfl, rfl, rfl⟩, List.Subset.refl _⟩

/-- Settles O60: when a run is over neither unit is enabled, and the host's turn finds no command. -/
theorem endOfRun : Obligations.EndOfRun := by
  unfold Obligations.EndOfRun
  intro s
  refine ⟨by rw [s.runOver_iff, DecState.not_busy_iff, no_command_iff], rfl, fun hover M a r hr t ht => ?_⟩
  obtain ⟨hidle, hbusy, hlines⟩ := s.runOver_iff.mp hover
  have hkept : SameBlock s t ∧ t.hostProg ⊆ s.hostProg := by
    obtain rfl | rfl | rfl := hr
    · exact hostStep_of_no_command hlines ht
    · obtain rfl := Host.Outcome.next.inj ((encStep_idle hidle).symm.trans ht)
      exact ⟨.refl _, List.Subset.refl _⟩
    · obtain rfl := Host.Outcome.next.inj ((decStep_of_not_busy (by rw [hbusy]; decide)).symm.trans ht)
      exact ⟨.refl _, List.Subset.refl _⟩
  obtain ⟨hsame, hprog⟩ := hkept
  exact ⟨hsame.observe, hsame.runOver hprog hover⟩

/-! ### The reset event -/

/-- The registers are functions of the block's elements alone (R39). -/
theorem regValue_congr {s t : State} (henc : t.enc = s.enc) (hdec : t.dec = s.dec) (herr : t.err = s.err) (off : Nat) :
    regValue t off = regValue s off := by
  simp only [regValue, encStatusReg, encMsgReg, decStatusReg, decMsgReg, errReg, henc, hdec, herr]

/-- Settles O48: the reset event leaves the block as `State.reset` has it, so the registers read as they do there. -/
theorem resetEvent : Obligations.ResetEvent := by
  unfold Obligations.ResetEvent
  refine ⟨fun M s => ⟨blockReset s, rfl, rfl, fun off => ?_⟩, rfl, rfl, rfl⟩
  exact (regValue_congr (s := State.reset) rfl rfl rfl off).trans (regValue_reset off)

end Machine

end Sys2Proof
end
